-- ==== Sys2Proof/Word.lean ====
section
/-! DEFINITION. The vocabulary of the machine: bytes, digits, characters, nodes, session states, keys, the
output events a node emits and the input events its environment offers (00_scope R2, R10, R14; 10_state R21,
R50 to R56). -/

namespace Sys2Proof

/-- A payload byte, an address or a key code (10_state R42). -/
abbrev Byte := BitVec 8

/-- A digit value, the `d = p - 0x30` of a digit code `p` (00_scope R10, 30_encoding R90). -/
abbrev Digit := Fin 10

/-- The four node roles (00_scope R2). -/
inductive NodeId where
  | inp   -- the input node, `INP`
  | dsp   -- the status-display node, `DSP`, "the session authority"
  | ind   -- the secondary-indicator node, `IND`
  | act   -- the actuator node, `ACT`
deriving DecidableEq, Repr, Inhabited

/-- The seven session states, in the source's order (10_state R21). -/
inductive SessionState where
  | standby
  | selectSpeed
  | selectMode
  | noTimer
  | enterTimer
  | timerRunning
  | timerEnded
deriving DecidableEq, Repr, Inhabited

/-- A character `{m, b}`: marker (true = address) and byte (00_scope R14, 30_encoding R80). -/
structure Char9 where
  marker : Bool
  byte   : Byte
deriving DecidableEq, Repr, Inhabited

/-- The twelve keys of the input node (00_scope R10, 30_encoding R88). -/
inductive Key where
  | digit (d : Digit)
  | star
  | hash
deriving DecidableEq, Repr, Inhabited

/-- What becomes of a byte accepted while another is waiting (40_framer R117). -/
inductive RxOverrun where
  | keepOld
  | keepNew
deriving DecidableEq, Repr, Inhabited

/-- The two progress indices of the countdown: the 14-segment bar and the 6-segment peripheral indicator
(10_state R32, 42_countdown R164). -/
inductive Progress where
  | bar
  | per
deriving DecidableEq, Repr, Inhabited

/-- What a countdown-engine call hands back to its caller: CT.TICK and CT.SECOND return NONE, FINISHED or
ADVANCED(bar, per), CT.PROGRESS returns whether its event fired (42_countdown R162 to R164). -/
inductive CallResult where
  | none
  | finished
  | advanced (bar per : Bool)
  | fired (yes : Bool)
deriving DecidableEq, Repr, Inhabited

/-- The output events of the four nodes (10_state R51 to R54). -/
inductive OutEvent where
  | screenWelcome
  | screenSpeedPrompt
  | screenModePrompt
  | screenTimerEntry (acc : Byte)
  | screenRunning (speed : BitVec 4)
  | screenEnd
  | fieldSpeed (speed : BitVec 4)
  | fieldTime (remMin : Byte) (remSec : BitVec 6)
  | barSegment (i : Nat)
  | indFrame (f : Bool)
  | indProgress (k : BitVec 3)
  | indBlink (b : Bool)
  | actEnable (e : Bool)
  | actDone (d : Bool)
deriving DecidableEq, Repr, Inhabited

/-- What the environment of the four nodes can do, one at a time: let a node's slot complete (40_framer R112),
let two slots overlap (R122), press a key (10_state R55), fire a hardware tick (R56), assert or release a
node's power-on reset (R57, 70_reset R280, R283). -/
inductive Event where
  | slot (n : NodeId)
  | overlap (a b : NodeId)
  | key (k : Key)
  | ctTick
  | dcTick
  | blinkTick
  | frameTick
  | resetOn (n : NodeId)
  | resetOff (n : NodeId)
deriving DecidableEq, Repr, Inhabited

/-- An entry of the script the step reads. `ev` is an event of the environment. `char` and `byte` are the
receive port of ONE node taken alone (10_state R57, 60_exceptions R257): a received character, an accepted
payload byte. DESIGN CHOICE (log 15), safe: only a script can hold them, the free schedule never does. -/
inductive Input where
  | ev (e : Event)
  | char (m : NodeId) (c : Char9)
  | byte (m : NodeId) (p : Byte)
deriving DecidableEq, Repr, Inhabited

end Sys2Proof
end

