-- ==== Sys2Proof/Machine/Operands.lean ====
section
/-! DEFINITION. Every operand form: digit codes and key codes (00_scope R10, 30_encoding R88, R90), the speed
level on the wire (R90), the character and message bit formats (R80, R81) and the session-state encoding
(10_state R21). -/

namespace Sys2Proof.Machine

/-- A digit code is a byte `b` with `0x30 <= b <= 0x39` (00_scope R10). -/
def isDigitCode (b : Byte) : Bool :=
  decide (0x30 ≤ b.toNat ∧ b.toNat ≤ 0x39)

/-- The code of a digit, `0x30 + d` (R10; the ASCII values are the spec's GK1, log 19). -/
def digitCode (d : Digit) : Byte :=
  BitVec.ofNat 8 (0x30 + d.val)

/-- The digit value `p - 0x30` of a digit code (30_encoding R90); `none` for any other byte. -/
def digitOf (b : Byte) : Option Digit :=
  if h : 0x30 ≤ b.toNat ∧ b.toNat ≤ 0x39 then some ⟨b.toNat - 0x30, by omega⟩ else none

/-- `keycode(k)` (00_scope R10). -/
def keycode : Key → Byte
  | .digit d => digitCode d
  | .star => 0x2A
  | .hash => 0x23

/-- The key a key code stands for; `none` for a byte that is no key code (30_encoding R88, U8). -/
def keyOf (b : Byte) : Option Key :=
  match digitOf b with
  | some d => some (.digit d)
  | none => if b = 0x2A then some .star else if b = 0x23 then some .hash else none

/-- A digit value as a speed register holds it, 4 bits (30_encoding R90). -/
def digitSpeed (d : Digit) : BitVec 4 :=
  BitVec.ofNat 4 d.val

/-- A speed level `s` on the wire, `0x30 + s` (30_encoding R90). -/
def speedCode (s : BitVec 4) : Byte :=
  BitVec.ofNat 8 (0x30 + s.toNat)

/-- `ADDRCH(a) = {1, a}` (00_scope R14). -/
def addrCh (a : Byte) : Char9 := ⟨true, a⟩

/-- `DATACH(p) = {0, p}` (00_scope R14). -/
def dataCh (p : Byte) : Char9 := ⟨false, p⟩

/-- The message `(a, p)` as its two characters, address first (30_encoding R81). -/
def message (a p : Byte) : List Char9 := [addrCh a, dataCh p]

/-- The 9-bit value of a character, marker at bit 8 (30_encoding R80). -/
def charBits (c : Char9) : BitVec 9 :=
  BitVec.ofBool c.marker ++ c.byte

/-- The character a 9-bit value stands for (30_encoding R80). -/
def charOfBits (w : BitVec 9) : Char9 :=
  ⟨w.getLsbD 8, w.setWidth 8⟩

/-- The 18-bit picture of a message, first character in the high half (30_encoding R81). -/
def messageBits (a p : Byte) : BitVec 18 :=
  charBits (addrCh a) ++ charBits (dataCh p)

/-- The 3-bit encoding of the session state (10_state R21, 30_encoding R91). -/
def sessionCode : SessionState → BitVec 3
  | .standby => 0
  | .selectSpeed => 1
  | .selectMode => 2
  | .noTimer => 3
  | .enterTimer => 4
  | .timerRunning => 5
  | .timerEnded => 6

/-- The session state of a 3-bit code; the code 7 stands for none (10_state R21, U7). -/
def sessionOfCode (w : BitVec 3) : Option SessionState :=
  match w.toNat with
  | 0 => some .standby
  | 1 => some .selectSpeed
  | 2 => some .selectMode
  | 3 => some .noTimer
  | 4 => some .enterTimer
  | 5 => some .timerRunning
  | 6 => some .timerEnded
  | _ => none

end Sys2Proof.Machine
end

