-- ==== Sys2Proof/Config.lean ====
section
/-! DEFINITION. What a build fixes, the record `CFG` of 00_scope R8, and the free values: constants with no
body, of which nothing can be proved, for what the spec leaves open. -/

namespace Sys2Proof

/-- The record `CFG`, field by field of the table of 00_scope R8. The five durations are in microseconds (unit:
DESIGN CHOICE, log 18); no rule reads them (70_reset R300). -/
structure Cfg where
  addrInp   : Byte
  addrDsp   : Byte
  addrInd   : Byte
  addrAct   : Byte
  dReset    : Byte
  dDelete   : Byte
  dConfirm  : Byte
  iReset    : Byte
  iStartNt  : Byte
  iStartWt  : Byte
  iProgress : Byte
  iEnded    : Byte
  aReset    : Byte
  aEnded    : Byte
  keyReset  : Key
  minMax    : Nat
  rxOverrun : RxOverrun
  tCtTick   : Nat
  tDcTick   : Nat
  tBlink    : Nat
  tFrame    : Nat
  tKeyPoll  : Nat
deriving DecidableEq, Repr

/-- `ADDR[n]` (00_scope R8). -/
def Cfg.addr (c : Cfg) : NodeId → Byte
  | .inp => c.addrInp
  | .dsp => c.addrDsp
  | .ind => c.addrInd
  | .act => c.addrAct

/-- Half of one second, the constraint and the default of `T_CT_TICK` (00_scope R8, 70_reset R300; unit: log 18). -/
def Config.halfSecond : Nat := 500000

/-- The constraints a well-formed `CFG` meets, each row of the table of 00_scope R8, `MIN_MAX`
first. -/
def Cfg.wf (c : Cfg) : Bool :=
  decide (1 ≤ c.minMax ∧ c.minMax ≤ 255)
  && (decide ([c.addrInp, c.addrDsp, c.addrInd, c.addrAct].Nodup)
    && !Machine.isDigitCode c.dReset
    && !Machine.isDigitCode c.dDelete && decide (c.dDelete ≠ c.dConfirm)
    && !Machine.isDigitCode c.dConfirm
    && decide ([c.iReset, c.iStartNt, c.iStartWt, c.iProgress, c.iEnded].Nodup)
    && !Machine.isDigitCode c.aReset && decide (c.aReset ≠ c.aEnded)
    && !Machine.isDigitCode c.aEnded
    && (decide (c.keyReset = .star) || decide (c.keyReset = .hash))
    && decide (c.tCtTick = Config.halfSecond)
    && decide (c.tDcTick ≠ 0) && decide (c.tBlink ≠ 0) && decide (c.tFrame ≠ 0) && decide (c.tKeyPoll ≠ 0))

namespace Config

/-- `RX_OVERRUN` of the build, open in the spec (R8, R117, D32): a free value (log 3). -/
opaque rxOverrun : RxOverrun

/-- The `k`-th event of the environment when no script is left: a free value, so every schedule and every
interleaving of slots is admitted (40_framer R121, 60_exceptions R259; log 5). -/
opaque freeEvent : Nat → Event

/-- The `k`-th choice between two events pending at one node, true = the byte first: a free value
(40_framer R118, 60_exceptions R259; log 6). -/
opaque freeChoice : Nat → Bool

/-- The elapsed seconds where more time remains than the total, for which R18 gives no natural number
(unreachable by 10_state R33): a free value of the two operands (log 14). -/
opaque elapsedBelowZero : Nat → Nat → Nat

/-- The bar segment `bar_idx - 1` at `bar_idx = 0`, for which 41_display R145 gives no natural number
(unreachable, since `bar_idx` was already incremented): a free value (log 14). -/
opaque segmentBelowZero : Nat

/-- `T_DC_TICK` of the build less one microsecond, so that the period is any positive number: open in the spec
(00_scope R8), a free value (log 18). -/
opaque dcTickLessOne : Nat

/-- `T_BLINK` of the build less one microsecond, so that the period is any positive number: open in the spec
(00_scope R8), a free value (log 18). -/
opaque blinkLessOne : Nat

/-- `T_FRAME` of the build less one microsecond, so that the period is any positive number: open in the spec
(00_scope R8), a free value (log 18). -/
opaque frameLessOne : Nat

/-- `T_KEYPOLL` of the build less one microsecond, so that the period is any positive number: open in the spec
(00_scope R8), a free value (log 18). -/
opaque keyPollLessOne : Nat

/-- The value of `rx_buf` after power-on, unspecified in the spec (R58, U11). DESIGN CHOICE (log 4), unsafe:
zero. -/
def rxBufAtReset : Byte := 0

end Config

/-- The default `CFG` of the table of 00_scope R8; the fields that have no default stay open: `RX_OVERRUN` and the
four open periods. -/
def Cfg.default : Cfg where
  addrInp   := 0x01
  addrDsp   := 0x02
  addrInd   := 0x03
  addrAct   := 0x04
  dReset    := 0xF0
  dDelete   := 0x2A
  dConfirm  := 0x23
  iReset    := 0xF0
  iStartNt  := 0xF1
  iStartWt  := 0xF2
  iProgress := 0xF3
  iEnded    := 0xF4
  aReset    := 0xF0
  aEnded    := 0xF4
  keyReset  := .star
  minMax    := 255
  rxOverrun := Config.rxOverrun
  tCtTick   := Config.halfSecond
  tDcTick   := Config.dcTickLessOne + 1
  tBlink    := Config.blinkLessOne + 1
  tFrame    := Config.frameLessOne + 1
  tKeyPoll  := Config.keyPollLessOne + 1

end Sys2Proof
end

