-- ==== Sys2Proof/Syntax.lean ====
section
/-! DEFINITION. The 56 operations of 30_encoding R92, one constructor per row of the operation table. Digit
operands are digit values, pulled out of the digit code once, at decoding (R90; log 22). -/

namespace Sys2Proof

inductive Instr where
  -- framer and bus (40_framer)
  | send (n : NodeId) (a p : Byte)
  | txc (n : NodeId)
  | rxa (m : NodeId) (b : Byte)
  | rxdDrop (m : NodeId) (b : Byte)
  | rxdAcc (m : NodeId) (p : Byte)
  | rxh (n : NodeId)
  -- display (41_display)
  | dspWake (p : Byte)
  | dspSpeed (d : Digit)
  | dspModeNt (d : Digit)
  | dspModeT
  | dspTDel
  | dspTOk
  | dspTDigit (d : Digit)
  | dspRunReset
  | dspRunSpeed (d : Digit)
  | dspEndReset
  | dspIgn (p : Byte)
  | dspTick
  | dspSec (bar per : Bool)
  | dspBar
  | dspPer
  | dspFin
  -- countdown engine (42_countdown)
  | ctStart (total : Byte)
  | ctStop
  | ctTick
  | ctSecond
  | ctProgress (k : Progress)
  -- duty-cycle generator (43_dutycycle)
  | dcStart
  | dcStop
  | dcSpeed (d : Digit)
  | dcTick
  -- input node (44_input)
  | inpWake (k : Key)
  | inpSpeed (d : Digit)
  | inpModeNt (d : Digit)
  | inpModeT
  | inpTDel
  | inpTOk
  | inpTDigit (d : Digit)
  | inpRunDigit (d : Digit)
  | inpRunReset
  | inpIgn (k : Key)
  | inpRx (p : Byte)
  -- indicator (45_indicator)
  | indReset
  | indStartNt
  | indStartWt
  | indProg
  | indProgAny (p : Byte)
  | indEnded
  | indIgn (p : Byte)
  | indBlink
  | indFrame
  -- actuator (46_actuator)
  | actReset
  | actEnded
  | actSpeed (d : Digit)
  | actIgn (p : Byte)
  | actTick
deriving DecidableEq, Repr

end Sys2Proof
end

