-- ==== Sys2Proof/WellFormed.lean ====
section
/-! DEFINITION. The conditions the spec puts on an operation's operands alone. The conditions on the node's
session state and filter are the selection's (30_encoding R84 to R87), in Decode.lean. -/

namespace Sys2Proof

/-- A key that is not a digit, one of `'*'` and `'#'` (00_scope R10). -/
def Key.nonDigit : Key → Bool
  | .digit _ => false
  | .star => true
  | .hash => true

/-- The operand conditions of each operation under a build `cfg`. -/
def Instr.wf (cfg : Cfg) : Instr → Bool
  | .send n _ _ => decide (n = .inp ∨ n = .dsp)      -- R110: "only INP and DSP have handlers that call it"
  | .txc _ => true
  | .rxa _ _ => true
  | .rxdDrop _ _ => true
  | .rxdAcc _ _ => true
  | .rxh _ => true
  | .dspWake _ => true
  | .dspSpeed _ => true
  | .dspModeNt d => decide (d ≠ 0)                   -- R133: a digit code other than 0x30
  | .dspModeT => true
  | .dspTDel => true
  | .dspTOk => true
  | .dspTDigit _ => true
  | .dspRunReset => true
  | .dspRunSpeed _ => true
  | .dspEndReset => true
  | .dspIgn _ => true
  | .dspTick => true
  | .dspSec _ _ => true
  | .dspBar => true
  | .dspPer => true
  | .dspFin => true
  | .ctStart total => decide (total.toNat ≤ cfg.minMax)   -- R160: 0 <= total <= MIN_MAX
  | .ctStop => true
  | .ctTick => true
  | .ctSecond => true
  | .ctProgress _ => true
  | .dcStart => true
  | .dcStop => true
  | .dcSpeed _ => true
  | .dcTick => true
  | .inpWake _ => true
  | .inpSpeed _ => true
  | .inpModeNt d => decide (d ≠ 0)                   -- R193: a digit other than '0'
  | .inpModeT => true
  | .inpTDel => true
  | .inpTOk => true
  | .inpTDigit _ => true
  | .inpRunDigit _ => true
  | .inpRunReset => true
  | .inpIgn _ => true
  | .inpRx _ => true
  | .indReset => true
  | .indStartNt => true
  | .indStartWt => true
  | .indProg => true
  | .indProgAny p =>                                 -- R215: none of the five I_* codes
      decide (p ∉ [cfg.iReset, cfg.iStartNt, cfg.iStartWt, cfg.iProgress, cfg.iEnded])
  | .indEnded => true
  | .indIgn p => decide (p ∉ [cfg.iReset, cfg.iStartNt, cfg.iStartWt])   -- R217
  | .indBlink => true
  | .indFrame => true
  | .actReset => true
  | .actEnded => true
  | .actSpeed _ => true
  | .actIgn p => decide (p ≠ cfg.aReset) && !Machine.isDigitCode p       -- R234
  | .actTick => true

end Sys2Proof
end

