-- ==== Sys2Proof/Decode.lean ====
section
/-! DEFINITION. How bits, a node and its state select an operation: the dispatch tables of 30_encoding R84 to
R87 and 40_framer R113, the decoder over bytes, the encoder, and the conditions of the operation table's rows. -/

namespace Sys2Proof

open Machine

/-! ## The dispatch tables, one type of outcomes per table -/

/-- The outcomes of the display's payload table (30_encoding R84). -/
inductive DspRxOp where
  | wake (p : Byte)
  | speed (d : Digit)
  | modeNt (d : Digit)
  | modeT
  | tDel
  | tOk
  | tDigit (d : Digit)
  | runReset
  | runSpeed (d : Digit)
  | endReset
  | ign (p : Byte)
deriving DecidableEq, Repr

/-- The outcomes of the indicator's payload table (30_encoding R85). -/
inductive IndRxOp where
  | reset
  | startNt
  | startWt
  | ended
  | prog
  | progAny (p : Byte)
  | ign (p : Byte)
deriving DecidableEq, Repr

/-- The outcomes of the actuator's payload table (30_encoding R86). -/
inductive ActRxOp where
  | reset
  | ended
  | speed (d : Digit)
  | ign (p : Byte)
deriving DecidableEq, Repr

/-- The outcomes of the input node's key table (30_encoding R87). -/
inductive InpKeyOp where
  | wake (k : Key)
  | speed (d : Digit)
  | modeNt (d : Digit)
  | modeT
  | tDel
  | tOk
  | tDigit (d : Digit)
  | runDigit (d : Digit)
  | runReset
  | ign (k : Key)
deriving DecidableEq, Repr

/-- The display's table, read top to bottom within a state (30_encoding R83, R84). -/
def selectDsp (cfg : Cfg) (st : SessionState) (p : Byte) : DspRxOp :=
  match st with
  | .standby => .wake p
  | .selectSpeed =>
    match digitOf p with
    | some d => .speed d
    | none => .ign p
  | .selectMode =>
    match digitOf p with
    | some d => if d = 0 then .modeT else .modeNt d
    | none => .ign p
  | .enterTimer =>
    if p = cfg.dDelete then .tDel
    else if p = cfg.dConfirm then .tOk
    else match digitOf p with
      | some d => .tDigit d
      | none => .ign p
  | .noTimer | .timerRunning =>
    if p = cfg.dReset then .runReset
    else match digitOf p with
      | some d => .runSpeed d
      | none => .ign p
  | .timerEnded => if p = cfg.dReset then .endReset else .ign p

/-- The indicator's table (30_encoding R85). -/
def selectInd (cfg : Cfg) (st : SessionState) (p : Byte) : IndRxOp :=
  if p = cfg.iReset then .reset
  else if p = cfg.iStartNt then .startNt
  else if p = cfg.iStartWt then .startWt
  else if st = .timerRunning then
    if p = cfg.iEnded then .ended
    else if p = cfg.iProgress then .prog
    else .progAny p
  else .ign p

/-- The actuator's table (30_encoding R86). -/
def selectAct (cfg : Cfg) (st : SessionState) (p : Byte) : ActRxOp :=
  if p = cfg.aReset then .reset
  else if p = cfg.aEnded then
    if st = .noTimer then .ended else .ign p
  else match digitOf p with
    | some d => .speed d
    | none => .ign p

/-- The input node's key table (30_encoding R87). -/
def selectKey (cfg : Cfg) (st : SessionState) (k : Key) : InpKeyOp :=
  match st with
  | .standby => .wake k
  | .selectSpeed =>
    match k with
    | .digit d => .speed d
    | .star | .hash => .ign k
  | .selectMode =>
    match k with
    | .digit d => if d = 0 then .modeT else .modeNt d
    | .star | .hash => .ign k
  | .enterTimer =>
    match k with
    | .star => .tDel
    | .hash => .tOk
    | .digit d => .tDigit d
  | .noTimer | .timerRunning =>
    match k with
    | .digit d => .runDigit d
    | .star | .hash => if k = cfg.keyReset then .runReset else .ign k
  | .timerEnded => .ign k

/-- The operation of an outcome of the display's table. -/
def dspInstr : DspRxOp → Instr
  | .wake p => .dspWake p
  | .speed d => .dspSpeed d
  | .modeNt d => .dspModeNt d
  | .modeT => .dspModeT
  | .tDel => .dspTDel
  | .tOk => .dspTOk
  | .tDigit d => .dspTDigit d
  | .runReset => .dspRunReset
  | .runSpeed d => .dspRunSpeed d
  | .endReset => .dspEndReset
  | .ign p => .dspIgn p

/-- The operation of an outcome of the indicator's table. -/
def indInstr : IndRxOp → Instr
  | .reset => .indReset
  | .startNt => .indStartNt
  | .startWt => .indStartWt
  | .ended => .indEnded
  | .prog => .indProg
  | .progAny p => .indProgAny p
  | .ign p => .indIgn p

/-- The operation of an outcome of the actuator's table. -/
def actInstr : ActRxOp → Instr
  | .reset => .actReset
  | .ended => .actEnded
  | .speed d => .actSpeed d
  | .ign p => .actIgn p

/-- The operation of an outcome of the input node's key table. -/
def inpInstr : InpKeyOp → Instr
  | .wake k => .inpWake k
  | .speed d => .inpSpeed d
  | .modeNt d => .inpModeNt d
  | .modeT => .inpModeT
  | .tDel => .inpTDel
  | .tOk => .inpTOk
  | .tDigit d => .inpTDigit d
  | .runDigit d => .inpRunDigit d
  | .runReset => .inpRunReset
  | .ign k => .inpIgn k

/-- The operation an accepted payload selects at a node in session state `st` (30_encoding R83 to R87). -/
def payloadInstr (cfg : Cfg) (m : NodeId) (st : SessionState) (p : Byte) : Instr :=
  match m with
  | .inp => .inpRx p
  | .dsp => dspInstr (selectDsp cfg st p)
  | .ind => indInstr (selectInd cfg st p)
  | .act => actInstr (selectAct cfg st p)

/-- The operation a key selects at the input node (30_encoding R87). -/
def keyInstr (cfg : Cfg) (st : SessionState) (k : Key) : Instr :=
  inpInstr (selectKey cfg st k)

/-- The operation a character selects at a node that hears it, by its marker and the node's filter
(40_framer R113). -/
def charInstr (m : NodeId) (filter : Bool) (c : Char9) : Instr :=
  if c.marker then .rxa m c.byte
  else if filter then .rxdDrop m c.byte
  else .rxdAcc m c.byte

/-! ## The decoder over bytes -/

/-- What stands beside the bits: the operation table gives one word to several rows, and the node, its
session state and its filter tell them apart (30_encoding R83, R92). -/
inductive Context where
  | heard (m : NodeId) (filter : Bool)              -- a character heard by node `m`
  | accepted (m : NodeId) (st : SessionState)       -- a payload accepted at node `m`
  | pressed (st : SessionState)                     -- a key code at the input node
  | sent (n : NodeId)                               -- the message of a SEND of node `n`
deriving DecidableEq, Repr

/-- Why bytes are no instruction. -/
inductive DecodeError where
  | tooShort          -- fewer bytes than the format has
  | notNineBits       -- a bit above the marker is set (30_encoding R80)
  | addressExpected   -- the first character of a message has marker 0 (R81)
  | dataExpected      -- a payload or second character has marker 1 (R81)
  | notAKey           -- a byte that is none of the twelve key codes (R88, U8)
  | notASender        -- a node that has no handler that sends (40_framer R110)
deriving DecidableEq, Repr

/-- One CHAR9 at the head of the bytes: two bytes, bits 7..0 first, the marker in bit 0 of the second
(layout of the bytes: DESIGN CHOICE, log 16, safe). -/
def takeChar : List Byte → Except DecodeError (Char9 × List Byte)
  | lo :: hi :: rest =>
    if hi = 0 then .ok (dataCh lo, rest)
    else if hi = 1 then .ok (addrCh lo, rest)
    else .error .notNineBits
  | _ => .error .tooShort

/-- The two characters of a MSG at the head of the bytes (30_encoding R81). -/
def takeMessage (bs : List Byte) : Except DecodeError ((Byte × Byte) × List Byte) :=
  match takeChar bs with
  | .error e => .error e
  | .ok (c1, bs1) =>
    match takeChar bs1 with
    | .error e => .error e
    | .ok (c2, bs2) =>
      if c1.marker = false then .error .addressExpected
      else if c2.marker = true then .error .dataExpected
      else .ok ((c1.byte, c2.byte), bs2)

/-- The decoder: the operation the bytes select in a context, and the bytes that follow. Total; refuses by
name. -/
def decode (cfg : Cfg) (cx : Context) (bs : List Byte) : Except DecodeError (Instr × List Byte) :=
  match cx with
  | .heard m filter =>
    match takeChar bs with
    | .error e => .error e
    | .ok (c, rest) => .ok (charInstr m filter c, rest)
  | .accepted m st =>
    match takeChar bs with
    | .error e => .error e
    | .ok (c, rest) =>
      if c.marker then .error .dataExpected
      else .ok (payloadInstr cfg m st c.byte, rest)
  | .pressed st =>
    match bs with
    | [] => .error .tooShort
    | b :: rest =>
      match keyOf b with
      | none => .error .notAKey
      | some k => .ok (keyInstr cfg st k, rest)
  | .sent n =>
    if n = .inp ∨ n = .dsp then
      match takeMessage bs with
      | .error e => .error e
      | .ok ((a, p), rest) => .ok (.send n a p, rest)
    else .error .notASender

/-! ## The encoder, from the same formats -/

/-- The two bytes of a CHAR9 (30_encoding R80; layout of the bytes log 16). -/
def charBytes (c : Char9) : List Byte :=
  [c.byte, if c.marker then 1 else 0]

/-- The bytes of a data character. -/
def payloadBytes (p : Byte) : List Byte :=
  charBytes (dataCh p)

/-- The bytes of an operation: `some` for the rows of formats CHAR9, MSG and KEY that the bits select, `none`
for the rows a tick, a slot or another operation selects (30_encoding R92). -/
def encode (cfg : Cfg) : Instr → Option (List Byte)
  | .send _ a p => some (charBytes (addrCh a) ++ charBytes (dataCh p))
  | .txc _ => none
  | .rxa _ b => some (charBytes (addrCh b))
  | .rxdDrop _ b => some (payloadBytes b)
  | .rxdAcc _ p => some (payloadBytes p)
  | .rxh _ => none
  | .dspWake p => some (payloadBytes p)
  | .dspSpeed d => some (payloadBytes (digitCode d))
  | .dspModeNt d => some (payloadBytes (digitCode d))
  | .dspModeT => some (payloadBytes 0x30)
  | .dspTDel => some (payloadBytes cfg.dDelete)
  | .dspTOk => some (payloadBytes cfg.dConfirm)
  | .dspTDigit d => some (payloadBytes (digitCode d))
  | .dspRunReset => some (payloadBytes cfg.dReset)
  | .dspRunSpeed d => some (payloadBytes (digitCode d))
  | .dspEndReset => some (payloadBytes cfg.dReset)
  | .dspIgn p => some (payloadBytes p)
  | .dspTick => none
  | .dspSec _ _ => none
  | .dspBar => none
  | .dspPer => none
  | .dspFin => none
  | .ctStart _ => none
  | .ctStop => none
  | .ctTick => none
  | .ctSecond => none
  | .ctProgress _ => none
  | .dcStart => none
  | .dcStop => none
  | .dcSpeed _ => none
  | .dcTick => none
  | .inpWake k => some [keycode k]
  | .inpSpeed d => some [digitCode d]
  | .inpModeNt d => some [digitCode d]
  | .inpModeT => some [0x30]
  | .inpTDel => some [keycode .star]
  | .inpTOk => some [keycode .hash]
  | .inpTDigit d => some [digitCode d]
  | .inpRunDigit d => some [digitCode d]
  | .inpRunReset => some [keycode cfg.keyReset]
  | .inpIgn k => some [keycode k]
  | .inpRx p => some (payloadBytes p)
  | .indReset => some (payloadBytes cfg.iReset)
  | .indStartNt => some (payloadBytes cfg.iStartNt)
  | .indStartWt => some (payloadBytes cfg.iStartWt)
  | .indProg => some (payloadBytes cfg.iProgress)
  | .indProgAny p => some (payloadBytes p)
  | .indEnded => some (payloadBytes cfg.iEnded)
  | .indIgn p => some (payloadBytes p)
  | .indBlink => none
  | .indFrame => none
  | .actReset => some (payloadBytes cfg.aReset)
  | .actEnded => some (payloadBytes cfg.aEnded)
  | .actSpeed d => some (payloadBytes (digitCode d))
  | .actIgn p => some (payloadBytes p)
  | .actTick => none

/-- A payload accepted at node `m`, in any session state. -/
def atNode (cx : Context) (m : NodeId) : Bool :=
  match cx with
  | .accepted m' _ => decide (m' = m)
  | .heard _ _ => false
  | .pressed _ => false
  | .sent _ => false

/-- Whether DSP.IGN is the row for payload `p` in state `st`: no other display row matches (30_encoding R84,
41_display R141). -/
def dspIgnores (cfg : Cfg) (st : SessionState) (p : Byte) : Bool :=
  match st with
  | .standby => false
  | .selectSpeed => !isDigitCode p
  | .selectMode => !isDigitCode p
  | .enterTimer => !isDigitCode p && decide (p ≠ cfg.dDelete ∧ p ≠ cfg.dConfirm)
  | .noTimer => !isDigitCode p && decide (p ≠ cfg.dReset)
  | .timerRunning => !isDigitCode p && decide (p ≠ cfg.dReset)
  | .timerEnded => decide (p ≠ cfg.dReset)

/-- Whether INP.IGN is the row for key `k` in state `st` (30_encoding R87, 44_input R200). -/
def inpIgnores (cfg : Cfg) (st : SessionState) (k : Key) : Bool :=
  match st with
  | .standby => false
  | .selectSpeed => k.nonDigit
  | .selectMode => k.nonDigit
  | .enterTimer => false
  | .noTimer => k.nonDigit && decide (k ≠ cfg.keyReset)
  | .timerRunning => k.nonDigit && decide (k ≠ cfg.keyReset)
  | .timerEnded => true

/-- The columns `node`, `st` and `cond` of the operation table: whether a context is one in which the row of
`i` applies. Rows with no bits apply in none. -/
def admits (cfg : Cfg) (cx : Context) : Instr → Bool
  | .send n _ _ => decide (cx = .sent n)
  | .rxa m _ => decide (cx = .heard m true ∨ cx = .heard m false)
  | .rxdDrop m _ => decide (cx = .heard m true)
  | .rxdAcc m _ => decide (cx = .heard m false)
  | .dspWake _ => decide (cx = .accepted .dsp .standby)
  | .dspSpeed _ => decide (cx = .accepted .dsp .selectSpeed)
  | .dspModeNt _ => decide (cx = .accepted .dsp .selectMode)
  | .dspModeT => decide (cx = .accepted .dsp .selectMode)
  | .dspTDel => decide (cx = .accepted .dsp .enterTimer)
  | .dspTOk => decide (cx = .accepted .dsp .enterTimer)
  | .dspTDigit _ => decide (cx = .accepted .dsp .enterTimer)
  | .dspRunReset => decide (cx = .accepted .dsp .noTimer ∨ cx = .accepted .dsp .timerRunning)
  | .dspRunSpeed _ => decide (cx = .accepted .dsp .noTimer ∨ cx = .accepted .dsp .timerRunning)
  | .dspEndReset => decide (cx = .accepted .dsp .timerEnded)
  | .dspIgn p =>
    match cx with
    | .accepted .dsp st => dspIgnores cfg st p
    | _ => false
  | .inpWake _ => decide (cx = .pressed .standby)
  | .inpSpeed _ => decide (cx = .pressed .selectSpeed)
  | .inpModeNt _ => decide (cx = .pressed .selectMode)
  | .inpModeT => decide (cx = .pressed .selectMode)
  | .inpTDel => decide (cx = .pressed .enterTimer)
  | .inpTOk => decide (cx = .pressed .enterTimer)
  | .inpTDigit _ => decide (cx = .pressed .enterTimer)
  | .inpRunDigit _ => decide (cx = .pressed .noTimer ∨ cx = .pressed .timerRunning)
  | .inpRunReset => decide (cx = .pressed .noTimer ∨ cx = .pressed .timerRunning)
  | .inpIgn k =>
    match cx with
    | .pressed st => inpIgnores cfg st k
    | _ => false
  | .inpRx _ => atNode cx .inp
  | .indReset => atNode cx .ind
  | .indStartNt => atNode cx .ind
  | .indStartWt => atNode cx .ind
  | .indProg => decide (cx = .accepted .ind .timerRunning)
  | .indProgAny _ => decide (cx = .accepted .ind .timerRunning)
  | .indEnded => decide (cx = .accepted .ind .timerRunning)
  | .indIgn _ => atNode cx .ind && decide (cx ≠ .accepted .ind .timerRunning)
  | .actReset => atNode cx .act
  | .actEnded => decide (cx = .accepted .act .noTimer)
  | .actSpeed _ => atNode cx .act
  | .actIgn p => atNode cx .act && !(decide (p = cfg.aEnded) && decide (cx = .accepted .act .noTimer))
  | .txc _ => false
  | .rxh _ => false
  | .dspTick => false
  | .dspSec _ _ => false
  | .dspBar => false
  | .dspPer => false
  | .dspFin => false
  | .ctStart _ => false
  | .ctStop => false
  | .ctTick => false
  | .ctSecond => false
  | .ctProgress _ => false
  | .dcStart => false
  | .dcStop => false
  | .dcSpeed _ => false
  | .dcTick => false
  | .indBlink => false
  | .indFrame => false
  | .actTick => false

/-! ## One word with no context -/

/-- The context in which a bare 9-bit word of the operation table is read (DESIGN CHOICE, log 15): that of
the most specific row whose match and mask fit the word at the default `CFG`, the first in the table's order
among equals. The session state is the node's own where the row allows any. -/
def tableContext (c : Char9) (indState : SessionState) : Context :=
  if c.marker then .heard .dsp true                                                   -- RXA
  else if c.byte = 0x30 then .accepted .dsp .selectMode                               -- DSP.MODE_T
  else if c.byte = 0x2A ∨ c.byte = 0x23 then .accepted .dsp .enterTimer               -- DSP.T_DEL, DSP.T_OK
  else if c.byte = 0xF0 then .accepted .dsp .noTimer                                  -- DSP.RUN_RESET
  else if c.byte = 0xF1 ∨ c.byte = 0xF2 then .accepted .ind indState                  -- IND.START_NT, IND.START_WT
  else if c.byte = 0xF3 ∨ c.byte = 0xF4 then .accepted .ind .timerRunning             -- IND.PROG, IND.ENDED
  else if isDigitCode c.byte then .accepted .dsp .selectSpeed                         -- DSP.SPEED
  else .heard .dsp true                                                               -- RXD.DROP

/-- The bytes of a table word: its first `nbits` bits, then the zero bits up to the two bytes of a CHAR9. -/
def tableBytes (nbits w : Nat) : List Byte :=
  [BitVec.ofNat 8 (w % 2 ^ nbits), BitVec.ofNat 8 (w % 2 ^ nbits / 256)]

/-- The instruction the decoder reads from a word of the operation table, at the default `CFG` (the table's
"cfg" column). -/
def decodeTableWord (nbits w : Nat) : Option Instr :=
  if 2 ^ 16 ≤ w % 2 ^ nbits then none
  else match takeChar (tableBytes nbits w) with
  | .error _ => none
  | .ok (c, _) =>
    match decode Cfg.default (tableContext c .standby) (tableBytes nbits w) with
    | .error _ => none
    | .ok (i, _) => some i

end Sys2Proof
end

