-- ==== Sys2Proof/Machine/Flags.lean ====
section
/-! DEFINITION. The arithmetic laws and the conditions the operations test. The hardware has no condition codes
(10_state R40); its tests are the accumulate guard (00_scope R17), the elapsed-fraction comparison (R18) and the
duty threshold (R19). All arithmetic is in the natural numbers (R15). -/

namespace Sys2Proof.Machine

/-- `t = acc*10 + d` (00_scope R17). -/
def appendDigit (acc : Byte) (d : Digit) : Nat :=
  acc.toNat * 10 + d.val

/-- The guard of 00_scope R17: the digit is accepted if and only if `t <= MIN_MAX`. -/
def digitFits (cfg : Cfg) (acc : Byte) (d : Digit) : Bool :=
  decide (appendDigit acc d ≤ cfg.minMax)

/-- `acc div 10` (00_scope R16). -/
def dropDigit (acc : Byte) : Byte :=
  BitVec.ofNat 8 (acc.toNat / 10)

/-- `total_s = total_min*60` (00_scope R18). -/
def totalSec (totalMin : Byte) : Nat :=
  totalMin.toNat * 60

/-- The remaining time in seconds, `rem_min*60 + rem_sec` (00_scope R18). -/
def remainingSec (remMin : Byte) (remSec : BitVec 6) : Nat :=
  remMin.toNat * 60 + remSec.toNat

/-- `elapsed_s = total_min*60 - rem_min*60 - rem_sec` (00_scope R18). Where more time remains than the total
the rule gives no natural number: a free value of the operands (log 14). -/
def elapsedSec (totalMin remMin : Byte) (remSec : BitVec 6) : Nat :=
  if remainingSec remMin remSec ≤ totalSec totalMin then
    totalSec totalMin - remainingSec remMin remSec
  else Config.elapsedBelowZero (totalSec totalMin) (remainingSec remMin remSec)

/-- The threshold test of 42_countdown R164: `idx < M` and `elapsed_s * M >= (idx + 1) * total_s`. -/
def crosses (idx m total elapsed : Nat) : Bool :=
  decide (idx < m ∧ (idx + 1) * total ≤ elapsed * m)

/-- `BAR_MAX = 14` and `PER_MAX = 6` (00_scope R9). -/
def progressMax : Progress → Nat
  | .bar => 14
  | .per => 6

/-- `thr(speed) = speed*10 + 10` (00_scope R19). -/
def dutyThreshold (speed : BitVec 4) : Nat :=
  speed.toNat * 10 + 10

/-- Whether the enable is asserted at this count (00_scope R19, 43_dutycycle R183). -/
def dutyOn (cnt : BitVec 7) (speed : BitVec 4) : Bool :=
  decide (cnt.toNat < dutyThreshold speed)

/-- `(dc_cnt + 1) mod 100` (00_scope R16, 43_dutycycle R183). -/
def dutyNext (cnt : BitVec 7) : BitVec 7 :=
  BitVec.ofNat 7 ((cnt.toNat + 1) % 100)

/-- The argument of BAR_SEGMENT, `bar_idx - 1` (41_display R145). At `bar_idx = 0` the rule gives no natural
number: a free value (log 14). -/
def barSegmentOf (barIdx : BitVec 4) : Nat :=
  if barIdx = 0 then Config.segmentBelowZero else barIdx.toNat - 1

/-- The progress index of the indicator after one PROGRESS, saturating at 6 (45_indicator R214). -/
def advanceProg (k : BitVec 3) : BitVec 3 :=
  if k.toNat < 6 then BitVec.ofNat 3 (k.toNat + 1) else k

end Sys2Proof.Machine
end

