-- ==== Sys2Proof/Machine/State.lean ====
section
/-! DEFINITION. The state of the machine as plain data: four node records (10_state R20), the registers of the
display, the indicator and the actuator, the build's `CFG`, and the model's own script and counters. -/

namespace Sys2Proof.Machine

/-- Why the machine stops with a fault. -/
inductive Fault where
  /-- Raised by `execTxc` alone: a node starts a slot while another node is transmit-enabled (40_framer R122,
  U1: "treats a second `tx_en <- 1` while another node's `tx_en = 1` as a fault"). Safe: the spec gives the
  overlap no behaviour, and the model stops. -/
  | busContention
deriving DecidableEq, Repr

/-- Why there is no meaning. -/
inductive Refusal where
  /-- Raised by an arm of `exec` for an operation that has no meaning yet; no arm does so. Safe. -/
  | notModelled (mnemonic : String)
  /-- Raised by `step` alone, where `CFG` violates the constraints of 00_scope R8 (U12: "a malformed `CFG` ...
  is `refuse`"). Safe. -/
  | malformedCfg
deriving DecidableEq, Repr

/-- The registers every node has (10_state R21, R23 to R26, R50) and the level of its power-on reset input
(10_state R57, 70_reset R283). -/
structure Node where
  rst    : Bool              -- true while the node is held in power-on reset
  st     : SessionState
  filter : Bool              -- true = closed
  txEn   : Bool
  txq    : List Char9        -- head first
  rxPend : Bool
  rxBuf  : Byte
  out    : List OutEvent     -- oldest first
deriving DecidableEq, Repr

/-- The display node's registers (10_state R29, R31, R32). -/
structure DisplayRegs where
  speed    : BitVec 4
  acc      : Byte
  totalMin : Byte
  remMin   : Byte
  remSec   : BitVec 6
  barIdx   : BitVec 4
  perIdx   : BitVec 3
  parity   : Bool
  ctRun    : Bool
  ctPend   : Bool
deriving DecidableEq, Repr

/-- The indicator node's registers (10_state R34). -/
structure IndicatorRegs where
  progIdx    : BitVec 3
  blinkRun   : Bool
  frameRun   : Bool
  blinkPhase : Bool
  frame      : Bool
deriving DecidableEq, Repr

/-- The actuator node's registers (10_state R35). -/
structure ActuatorRegs where
  speed : BitVec 4
  dcCnt : BitVec 7
  dcRun : Bool
  actEn : Bool
  done  : Bool
deriving DecidableEq, Repr

/-- The whole state. `cfg`, `ret`, `inputs` and `free` are the model's own fields (log 2, 13, 5, 6). -/
structure State where
  cfg    : Cfg
  inp    : Node
  dsp    : Node
  ind    : Node
  act    : Node
  disp   : DisplayRegs
  indr   : IndicatorRegs
  actr   : ActuatorRegs
  ret    : CallResult
  inputs : List Input
  free   : Nat
deriving DecidableEq, Repr

/-- A node right after power-on reset, with the given output trace (70_reset R281, R282). -/
def Node.reset (out : List OutEvent) : Node where
  rst    := false
  st     := .standby
  filter := true
  txEn   := false
  txq    := []
  rxPend := false
  rxBuf  := Config.rxBufAtReset
  out    := out

/-- The display's registers after power-on reset (70_reset R281). -/
def DisplayRegs.reset : DisplayRegs where
  speed    := 0
  acc      := 0
  totalMin := 0
  remMin   := 0
  remSec   := 0
  barIdx   := 0
  perIdx   := 0
  parity   := false
  ctRun    := false
  ctPend   := false

/-- The indicator's registers after power-on reset (70_reset R281). -/
def IndicatorRegs.reset : IndicatorRegs where
  progIdx    := 0
  blinkRun   := false
  frameRun   := false
  blinkPhase := false
  frame      := false

/-- The actuator's registers after power-on reset (70_reset R281). -/
def ActuatorRegs.reset : ActuatorRegs where
  speed := 0
  dcCnt := 0
  dcRun := false
  actEn := false
  done  := false

/-- The output trace of a node at power-on: the display's first output is the welcome screen (70_reset R282). -/
def bootTrace : NodeId → List OutEvent
  | .inp => []
  | .dsp => [.screenWelcome]
  | .ind => []
  | .act => []

/-- The machine right after power-on reset of all four nodes (70_reset R281, R282; SIMULTANEOUS_BOOT of R283,
log 10), with the default `CFG` and no script. -/
def State.reset : State where
  cfg    := Cfg.default
  inp    := Node.reset (bootTrace .inp)
  dsp    := Node.reset (bootTrace .dsp)
  ind    := Node.reset (bootTrace .ind)
  act    := Node.reset (bootTrace .act)
  disp   := DisplayRegs.reset
  indr   := IndicatorRegs.reset
  actr   := ActuatorRegs.reset
  ret    := .none
  inputs := []
  free   := 0

end Sys2Proof.Machine
end

