-- ==== Sys2Proof/Machine/Ops.lean ====
section
/-! DEFINITION. The named operations over the nodes' registers: access to a node record, output, sending, busy
and idle, keeping an event of a busy node, and the power-on reset of one node. The hardware has no exception and
no return from one (60_exceptions R250, R260, R261), and no memory (20_memory R60). -/

namespace Sys2Proof.Machine

/-- The four nodes, in the order INP, DSP, IND, ACT (00_scope R2). -/
def allNodes : List NodeId := [.inp, .dsp, .ind, .act]

/-- The record of node `n`. -/
def State.node (s : State) : NodeId → Node
  | .inp => s.inp
  | .dsp => s.dsp
  | .ind => s.ind
  | .act => s.act

/-- Change the record of node `n` by `f`. -/
def modNode (n : NodeId) (f : Node → Node) (s : State) : State :=
  match n with
  | .inp => { s with inp := f s.inp }
  | .dsp => { s with dsp := f s.dsp }
  | .ind => { s with ind := f s.ind }
  | .act => { s with act := f s.act }

/-- `n.st <- v`. -/
def setSt (n : NodeId) (v : SessionState) (s : State) : State :=
  modNode n (fun x => { x with st := v }) s

/-- `n.filter <- v`, true = closed. -/
def setFilter (n : NodeId) (v : Bool) (s : State) : State :=
  modNode n (fun x => { x with filter := v }) s

/-- `n.tx_en <- v`. -/
def setTxEn (n : NodeId) (v : Bool) (s : State) : State :=
  modNode n (fun x => { x with txEn := v }) s

/-- `n.txq <- q`. -/
def setTxq (n : NodeId) (q : List Char9) (s : State) : State :=
  modNode n (fun x => { x with txq := q }) s

/-- `n.rx_pend <- v`. -/
def setRxPend (n : NodeId) (v : Bool) (s : State) : State :=
  modNode n (fun x => { x with rxPend := v }) s

/-- `n.rx_buf <- b`. -/
def setRxBuf (n : NodeId) (b : Byte) (s : State) : State :=
  modNode n (fun x => { x with rxBuf := b }) s

/-- `emit n, e` (00_scope R13). -/
def emit (n : NodeId) (e : OutEvent) (s : State) : State :=
  modNode n (fun x => { x with out := x.out ++ [e] }) s

/-- Change the display's registers. -/
def modDisp (f : DisplayRegs → DisplayRegs) (s : State) : State :=
  { s with disp := f s.disp }

/-- Change the indicator's registers. -/
def modIndr (f : IndicatorRegs → IndicatorRegs) (s : State) : State :=
  { s with indr := f s.indr }

/-- Change the actuator's registers. -/
def modActr (f : ActuatorRegs → ActuatorRegs) (s : State) : State :=
  { s with actr := f s.actr }

/-- The value a countdown-engine call returns to its caller. -/
def setRet (r : CallResult) (s : State) : State :=
  { s with ret := r }

/-- A node is idle when its `txq` is empty (10_state R30). -/
def State.idle (s : State) (n : NodeId) : Bool :=
  (s.node n).txq.isEmpty

/-- `n.ie`, derived: 1 exactly when the node is idle (10_state R27). -/
def State.ie (s : State) (n : NodeId) : Bool :=
  s.idle n

/-- `SEND(n, a, p)` (40_framer R110). -/
def send (n : NodeId) (a p : Byte) (s : State) : State :=
  modNode n (fun x => { x with txq := x.txq ++ message a p }) s

/-- `OVERRUN(m, b)`: a byte accepted while an earlier one waits (40_framer R117). -/
def overrun (m : NodeId) (b : Byte) (s : State) : State :=
  match s.cfg.rxOverrun with
  | .keepOld => s
  | .keepNew => setRxBuf m b s

/-- An accepted byte at a busy node waits in `rx_buf`, or overruns the one that waits (40_framer R116, R117;
60_exceptions R258). -/
def keepByte (m : NodeId) (b : Byte) (s : State) : State :=
  if (s.node m).rxPend then overrun m b s
  else setRxPend m true (setRxBuf m b s)

/-- A countdown tick at a busy display waits in `ct_pend`; a second one merges with it (60_exceptions R258). DESIGN
CHOICE (log 25), unsafe: it waits whether or not the engine runs, and the run flag is read when the tick is
handled; R258 also says that a tick whose run flag is 0 has no effect. -/
def keepTick (s : State) : State :=
  modDisp (fun d => { d with ctPend := true }) s

/-- The role registers of node `n` to their values after power-on reset (70_reset R281). -/
def resetRole (n : NodeId) (s : State) : State :=
  match n with
  | .inp => s
  | .dsp => { s with disp := DisplayRegs.reset }
  | .ind => { s with indr := IndicatorRegs.reset }
  | .act => { s with actr := ActuatorRegs.reset }

/-- Node `n`'s `rst` input is asserted: nothing is retained (10_state R58, 70_reset R280), and the node is held
in reset (R283). Its registers hold their reset values meanwhile and its trace is empty (DESIGN CHOICE,
log 10). -/
def holdReset (n : NodeId) (s : State) : State :=
  modNode n (fun _ => { Node.reset [] with rst := true }) (resetRole n s)

/-- Node `n`'s `rst` input is released: the node leaves reset in the state of 70_reset R281 with the outputs of
R282. Releasing an input that is not asserted does nothing. -/
def releaseReset (n : NodeId) (s : State) : State :=
  if (s.node n).rst then modNode n (fun _ => Node.reset (bootTrace n)) (resetRole n s) else s

end Sys2Proof.Machine
end

