-- ==== Sys2Proof/Machine/DutyCycle.lean ====
section
/-! DEFINITION. The Duty-Cycle Generator of the actuator node (43_dutycycle). -/

namespace Sys2Proof.Machine

/-- `act_en <- e`, with ACT_ENABLE emitted when the value changes (10_state R54). -/
def setActEn (e : Bool) (s : State) : State :=
  if e = s.actr.actEn then s
  else emit .act (.actEnable e) (modActr (fun a => { a with actEn := e }) s)

/-- `done <- d`, with ACT_DONE emitted when the value changes (10_state R54). -/
def setDone (d : Bool) (s : State) : State :=
  if d = s.actr.done then s
  else emit .act (.actDone d) (modActr (fun a => { a with done := d }) s)

/-- `DC.START` (43_dutycycle R180). -/
def dcStart (s : State) : State :=
  modActr (fun a => { a with dcRun := true }) s

/-- `DC.STOP` (43_dutycycle R181). -/
def dcStop (s : State) : State :=
  setActEn false (modActr (fun a => { a with dcRun := false }) s)

/-- `DC.SPEED(s)` (43_dutycycle R182). -/
def dcSpeed (d : Digit) (s : State) : State :=
  modActr (fun a => { a with speed := digitSpeed d }) s

/-- `DC.TICK` (43_dutycycle R183): the compare is with the counter before the increment. -/
def dcTick (s : State) : State :=
  if s.actr.dcRun then
    modActr (fun a => { a with dcCnt := dutyNext a.dcCnt })
      (setActEn (dutyOn s.actr.dcCnt s.actr.speed) s)
  else s

/-- DC.START (43_dutycycle R180). -/
def execDcStart (s : State) : Host.Outcome State Fault Refusal := .next (dcStart s)

/-- DC.STOP (43_dutycycle R181). -/
def execDcStop (s : State) : Host.Outcome State Fault Refusal := .next (dcStop s)

/-- DC.SPEED (43_dutycycle R182). -/
def execDcSpeed (d : Digit) (s : State) : Host.Outcome State Fault Refusal := .next (dcSpeed d s)

/-- DC.TICK (43_dutycycle R183). -/
def execDcTick (s : State) : Host.Outcome State Fault Refusal := .next (dcTick s)

end Sys2Proof.Machine
end

