-- ==== Sys2Proof/Machine/Actuator.lean ====
section
/-! DEFINITION. The actuator role's state machine (46_actuator). -/

namespace Sys2Proof.Machine

/-- `ACT.RESET` (46_actuator R231). -/
def actReset (s : State) : State :=
  setDone false
    (modActr (fun a => { a with speed := 0, dcCnt := 0 }) (setSt .act .standby (dcStop s)))

/-- `ACT.ENDED` (46_actuator R232). -/
def actEnded (s : State) : State :=
  setDone true (setSt .act .timerEnded (dcStop s))

/-- `ACT.SPEED` (46_actuator R233): in `Standby` a speed level starts the generator. -/
def actSpeed (d : Digit) (s : State) : State :=
  if s.act.st = .standby then dcStart (setSt .act .noTimer (dcSpeed d s)) else dcSpeed d s

/-- `ACT.IGN` (46_actuator R234). -/
def actIgn (_p : Byte) (s : State) : State := s

/-- `ACT.RX(p)`: the receive handler (46_actuator R230). -/
def actRx (p : Byte) (s : State) : State :=
  match selectAct s.cfg s.act.st p with
  | .reset => actReset s
  | .ended => actEnded s
  | .speed d => actSpeed d s
  | .ign p => actIgn p s

/-- `ACT.TICK` (46_actuator R235). -/
def actTick (s : State) : State := dcTick s

/-- ACT.RESET (46_actuator R231). -/
def execActReset (s : State) : Host.Outcome State Fault Refusal := .next (actReset s)

/-- ACT.ENDED (46_actuator R232). -/
def execActEnded (s : State) : Host.Outcome State Fault Refusal := .next (actEnded s)

/-- ACT.SPEED (46_actuator R233). -/
def execActSpeed (d : Digit) (s : State) : Host.Outcome State Fault Refusal := .next (actSpeed d s)

/-- ACT.IGN (46_actuator R234). -/
def execActIgn (p : Byte) (s : State) : Host.Outcome State Fault Refusal := .next (actIgn p s)

/-- ACT.TICK (46_actuator R235). -/
def execActTick (s : State) : Host.Outcome State Fault Refusal := .next (actTick s)

end Sys2Proof.Machine
end

