-- ==== Sys2Proof/Machine/Countdown.lean ====
section
/-! DEFINITION. The Countdown Timer Engine of the display node (42_countdown). A call's result goes back to its
caller in `ret` (log 13). -/

namespace Sys2Proof.Machine

/-- `CT.START(total)` (42_countdown R160). -/
def ctStart (total : Byte) (s : State) : State :=
  modDisp (fun d =>
    { d with
      totalMin := total, remMin := total, remSec := 0, barIdx := 0, perIdx := 0, parity := false,
      ctRun := true }) s

/-- `CT.STOP` (42_countdown R161). -/
def ctStop (s : State) : State :=
  modDisp (fun d => { d with ctRun := false }) s

/-- The progress index the test is made for (42_countdown R164). -/
def progressIdx (k : Progress) (d : DisplayRegs) : Nat :=
  match k with
  | .bar => d.barIdx.toNat
  | .per => d.perIdx.toNat

/-- `idx <- idx + 1` (42_countdown R164). -/
def bumpProgress (k : Progress) (d : DisplayRegs) : DisplayRegs :=
  match k with
  | .bar => { d with barIdx := BitVec.ofNat 4 (d.barIdx.toNat + 1) }
  | .per => { d with perIdx := BitVec.ofNat 3 (d.perIdx.toNat + 1) }

/-- Whether the next threshold of `k` is reached (42_countdown R164). -/
def progressFires (k : Progress) (d : DisplayRegs) : Bool :=
  crosses (progressIdx k d) (progressMax k) (totalSec d.totalMin)
    (elapsedSec d.totalMin d.remMin d.remSec)

/-- `CT.PROGRESS(idx, M)` (42_countdown R164). -/
def ctProgress (k : Progress) (s : State) : State :=
  if progressFires k s.disp then setRet (.fired true) (modDisp (bumpProgress k) s)
  else setRet (.fired false) s

/-- Whether the last CT.PROGRESS returned true. -/
def eventFired (r : CallResult) : Bool :=
  match r with
  | .fired yes => yes
  | .none => false
  | .finished => false
  | .advanced _ _ => false

/-- Both countdown counters are zero (42_countdown R163). -/
def timeIsUp (d : DisplayRegs) : Bool :=
  decide (d.remMin = 0 ∧ d.remSec = 0)

/-- The decrement of one second, borrowing a minute when the seconds are zero (42_countdown R163). -/
def oneSecondLess (d : DisplayRegs) : DisplayRegs :=
  if d.remSec = 0 then { d with remSec := 59, remMin := BitVec.ofNat 8 (d.remMin.toNat - 1) }
  else { d with remSec := BitVec.ofNat 6 (d.remSec.toNat - 1) }

/-- `CT.SECOND` (42_countdown R163): the zero test comes before the decrement. -/
def ctSecond (s : State) : State :=
  if timeIsUp s.disp then setRet .finished s
  else
    let s1 := ctProgress .bar (modDisp oneSecondLess s)
    let s2 := ctProgress .per s1
    setRet (.advanced (eventFired s1.ret) (eventFired s2.ret)) s2

/-- `CT.TICK` (42_countdown R162): a second elapses on the falling edge of `parity`. -/
def ctTick (s : State) : State :=
  if s.disp.ctRun then
    let s1 := modDisp (fun d => { d with parity := !d.parity }) s
    if s.disp.parity then ctSecond s1 else setRet .none s1
  else setRet .none s

/-- CT.START (42_countdown R160). -/
def execCtStart (total : Byte) (s : State) : Host.Outcome State Fault Refusal := .next (ctStart total s)

/-- CT.STOP (42_countdown R161). -/
def execCtStop (s : State) : Host.Outcome State Fault Refusal := .next (ctStop s)

/-- CT.TICK (42_countdown R162). -/
def execCtTick (s : State) : Host.Outcome State Fault Refusal := .next (ctTick s)

/-- CT.SECOND (42_countdown R163). -/
def execCtSecond (s : State) : Host.Outcome State Fault Refusal := .next (ctSecond s)

/-- CT.PROGRESS (42_countdown R164). -/
def execCtProgress (k : Progress) (s : State) : Host.Outcome State Fault Refusal := .next (ctProgress k s)

end Sys2Proof.Machine
end

