-- ==== Sys2Proof/Machine/Display.lean ====
section
/-! DEFINITION. The display role's state machine (41_display). -/

namespace Sys2Proof.Machine

/-! ## Shared operations -/

/-- `BCAST_START(c)`: the start code to the indicator, then the speed level to the actuator (41_display R148). -/
def bcastStart (c : Byte) (s : State) : State :=
  send .dsp s.cfg.addrAct (speedCode s.disp.speed) (send .dsp s.cfg.addrInd c s)

/-- `BCAST_ENDED`: indicator, actuator, indicator, actuator (41_display R149). -/
def bcastEnded (s : State) : State :=
  let once := fun t => send .dsp s.cfg.addrAct s.cfg.aEnded (send .dsp s.cfg.addrInd s.cfg.iEnded t)
  once (once s)

/-- `DSP.REINIT` (41_display R142): the session registers to their reset values, `ct_pend` and the framer
untouched. -/
def dspReinit (s : State) : State :=
  setSt .dsp .standby (modDisp (fun d => { DisplayRegs.reset with ctPend := d.ctPend }) s)

/-! ## Operations selected by a received byte -/

/-- `DSP.WAKE` (41_display R131). -/
def dspWake (_p : Byte) (s : State) : State :=
  emit .dsp .screenSpeedPrompt (setSt .dsp .selectSpeed s)

/-- `DSP.SPEED` (41_display R132). -/
def dspSpeed (d : Digit) (s : State) : State :=
  emit .dsp .screenModePrompt
    (setSt .dsp .selectMode (modDisp (fun r => { r with speed := digitSpeed d }) s))

/-- `DSP.MODE_NT` (41_display R133); the digit is not stored (D41). -/
def dspModeNt (_d : Digit) (s : State) : State :=
  bcastStart s.cfg.iStartNt (emit .dsp (.screenRunning s.disp.speed) (setSt .dsp .noTimer s))

/-- `DSP.MODE_T` (41_display R134). -/
def dspModeT (s : State) : State :=
  emit .dsp (.screenTimerEntry 0) (setSt .dsp .enterTimer (modDisp (fun r => { r with acc := 0 }) s))

/-- `DSP.T_DEL` (41_display R135). -/
def dspTDel (s : State) : State :=
  emit .dsp (.screenTimerEntry (dropDigit s.disp.acc))
    (modDisp (fun r => { r with acc := dropDigit r.acc }) s)

/-- `DSP.T_OK` (41_display R136). -/
def dspTOk (s : State) : State :=
  bcastStart s.cfg.iStartWt
    (emit .dsp (.screenRunning s.disp.speed) (setSt .dsp .timerRunning (ctStart s.disp.acc s)))

/-- `DSP.T_DIGIT` (41_display R137). -/
def dspTDigit (d : Digit) (s : State) : State :=
  if digitFits s.cfg s.disp.acc d then
    let t := BitVec.ofNat 8 (appendDigit s.disp.acc d)
    emit .dsp (.screenTimerEntry t) (modDisp (fun r => { r with acc := t }) s)
  else s

/-- `DSP.RUN_RESET` (41_display R138). -/
def dspRunReset (s : State) : State :=
  emit .dsp .screenWelcome (dspReinit (ctStop s))

/-- `DSP.RUN_SPEED` (41_display R139). -/
def dspRunSpeed (d : Digit) (s : State) : State :=
  emit .dsp (.fieldSpeed (digitSpeed d)) (modDisp (fun r => { r with speed := digitSpeed d }) s)

/-- `DSP.END_RESET` (41_display R140). -/
def dspEndReset (s : State) : State :=
  emit .dsp .screenWelcome (dspReinit s)

/-- `DSP.IGN` (41_display R141). -/
def dspIgn (_p : Byte) (s : State) : State := s

/-- `DSP.RX(p)`: the receive handler, one operation selected by the table and run (41_display R130). -/
def dspRx (p : Byte) (s : State) : State :=
  match selectDsp s.cfg s.dsp.st p with
  | .wake p => dspWake p s
  | .speed d => dspSpeed d s
  | .modeNt d => dspModeNt d s
  | .modeT => dspModeT s
  | .tDel => dspTDel s
  | .tOk => dspTOk s
  | .tDigit d => dspTDigit d s
  | .runReset => dspRunReset s
  | .runSpeed d => dspRunSpeed d s
  | .endReset => dspEndReset s
  | .ign p => dspIgn p s

/-! ## Operations selected by the countdown tick -/

/-- `DSP.BAR` (41_display R145). -/
def dspBar (s : State) : State :=
  emit .dsp (.barSegment (barSegmentOf s.disp.barIdx)) s

/-- `DSP.PER` (41_display R146). -/
def dspPer (s : State) : State :=
  send .dsp s.cfg.addrInd s.cfg.iProgress s

/-- `DSP.SEC(bar, per)` (41_display R144): time field, bar, message. -/
def dspSec (bar per : Bool) (s : State) : State :=
  let s1 := emit .dsp (.fieldTime s.disp.remMin s.disp.remSec) s
  let s2 := if bar then dspBar s1 else s1
  if per then dspPer s2 else s2

/-- `DSP.FIN` (41_display R147). -/
def dspFin (s : State) : State :=
  bcastEnded (emit .dsp .screenEnd (setSt .dsp .timerEnded (ctStop s)))

/-- `DSP.TICK` (41_display R143). CT.TICK never returns the result of CT.PROGRESS. -/
def dspTick (s : State) : State :=
  let s1 := ctTick s
  match s1.ret with
  | .finished => dspFin s1
  | .advanced bar per => dspSec bar per s1
  | .none => s1
  | .fired _ => s1

/-! ## The meanings -/

/-- DSP.WAKE (41_display R131). -/
def execDspWake (p : Byte) (s : State) : Host.Outcome State Fault Refusal := .next (dspWake p s)

/-- DSP.SPEED (41_display R132). -/
def execDspSpeed (d : Digit) (s : State) : Host.Outcome State Fault Refusal := .next (dspSpeed d s)

/-- DSP.MODE_NT (41_display R133). -/
def execDspModeNt (d : Digit) (s : State) : Host.Outcome State Fault Refusal := .next (dspModeNt d s)

/-- DSP.MODE_T (41_display R134). -/
def execDspModeT (s : State) : Host.Outcome State Fault Refusal := .next (dspModeT s)

/-- DSP.T_DEL (41_display R135). -/
def execDspTDel (s : State) : Host.Outcome State Fault Refusal := .next (dspTDel s)

/-- DSP.T_OK (41_display R136). -/
def execDspTOk (s : State) : Host.Outcome State Fault Refusal := .next (dspTOk s)

/-- DSP.T_DIGIT (41_display R137). -/
def execDspTDigit (d : Digit) (s : State) : Host.Outcome State Fault Refusal := .next (dspTDigit d s)

/-- DSP.RUN_RESET (41_display R138). -/
def execDspRunReset (s : State) : Host.Outcome State Fault Refusal := .next (dspRunReset s)

/-- DSP.RUN_SPEED (41_display R139). -/
def execDspRunSpeed (d : Digit) (s : State) : Host.Outcome State Fault Refusal := .next (dspRunSpeed d s)

/-- DSP.END_RESET (41_display R140). -/
def execDspEndReset (s : State) : Host.Outcome State Fault Refusal := .next (dspEndReset s)

/-- DSP.IGN (41_display R141). -/
def execDspIgn (p : Byte) (s : State) : Host.Outcome State Fault Refusal := .next (dspIgn p s)

/-- DSP.TICK (41_display R143). -/
def execDspTick (s : State) : Host.Outcome State Fault Refusal := .next (dspTick s)

/-- DSP.SEC (41_display R144). -/
def execDspSec (bar per : Bool) (s : State) : Host.Outcome State Fault Refusal := .next (dspSec bar per s)

/-- DSP.BAR (41_display R145). -/
def execDspBar (s : State) : Host.Outcome State Fault Refusal := .next (dspBar s)

/-- DSP.PER (41_display R146). -/
def execDspPer (s : State) : Host.Outcome State Fault Refusal := .next (dspPer s)

/-- DSP.FIN (41_display R147). -/
def execDspFin (s : State) : Host.Outcome State Fault Refusal := .next (dspFin s)

end Sys2Proof.Machine
end

