-- ==== Sys2Proof/Machine/Indicator.lean ====
section
/-! DEFINITION. The secondary-indicator role's state machine and its two local timers (45_indicator). -/

namespace Sys2Proof.Machine

/-- The restart common to both START codes: index zeroed, both timers started (45_indicator R212, R213). -/
def indStart (v : SessionState) (s : State) : State :=
  emit .ind (.indProgress 0)
    (modIndr (fun r => { r with progIdx := 0, blinkRun := true, frameRun := true }) (setSt .ind v s))

/-- The saturating advance of the progress index (45_indicator R214). -/
def indAdvance (s : State) : State :=
  emit .ind (.indProgress (advanceProg s.indr.progIdx))
    (modIndr (fun r => { r with progIdx := advanceProg r.progIdx }) s)

/-- `frame <- f`, with IND_FRAME emitted when the value changes (45_indicator R211). -/
def clearFrame (s : State) : State :=
  if s.indr.frame then emit .ind (.indFrame false) (modIndr (fun r => { r with frame := false }) s)
  else s

/-- `IND.RESET` (45_indicator R211). -/
def indReset (s : State) : State :=
  emit .ind (.indProgress 0)
    (clearFrame
      (modIndr (fun r => { r with progIdx := 0, blinkRun := false, frameRun := false, blinkPhase := false })
        (setSt .ind .standby s)))

/-- `IND.START_NT` (45_indicator R212). -/
def indStartNt (s : State) : State := indStart .noTimer s

/-- `IND.START_WT` (45_indicator R213). -/
def indStartWt (s : State) : State := indStart .timerRunning s

/-- `IND.PROG` (45_indicator R214). -/
def indProg (s : State) : State := indAdvance s

/-- `IND.PROG_ANY`: "The effect is exactly that of `IND.PROG`" (45_indicator R215). -/
def indProgAny (_p : Byte) (s : State) : State := indAdvance s

/-- `IND.ENDED` (45_indicator R216). -/
def indEnded (s : State) : State :=
  modIndr (fun r => { r with blinkRun := false, frameRun := false }) (setSt .ind .timerEnded s)

/-- `IND.IGN` (45_indicator R217). -/
def indIgn (_p : Byte) (s : State) : State := s

/-- `IND.RX(p)`: the receive handler (45_indicator R210). -/
def indRx (p : Byte) (s : State) : State :=
  match selectInd s.cfg s.ind.st p with
  | .reset => indReset s
  | .startNt => indStartNt s
  | .startWt => indStartWt s
  | .ended => indEnded s
  | .prog => indProg s
  | .progAny p => indProgAny p s
  | .ign p => indIgn p s

/-- `IND.BLINK` (45_indicator R218). -/
def indBlink (s : State) : State :=
  if s.indr.blinkRun then
    emit .ind (.indBlink (!s.indr.blinkPhase)) (modIndr (fun r => { r with blinkPhase := !r.blinkPhase }) s)
  else s

/-- `IND.FRAME` (45_indicator R219). -/
def indFrame (s : State) : State :=
  if s.indr.frameRun then
    emit .ind (.indFrame (!s.indr.frame)) (modIndr (fun r => { r with frame := !r.frame }) s)
  else s

/-- IND.RESET (45_indicator R211). -/
def execIndReset (s : State) : Host.Outcome State Fault Refusal := .next (indReset s)

/-- IND.START_NT (45_indicator R212). -/
def execIndStartNt (s : State) : Host.Outcome State Fault Refusal := .next (indStartNt s)

/-- IND.START_WT (45_indicator R213). -/
def execIndStartWt (s : State) : Host.Outcome State Fault Refusal := .next (indStartWt s)

/-- IND.PROG (45_indicator R214). -/
def execIndProg (s : State) : Host.Outcome State Fault Refusal := .next (indProg s)

/-- IND.PROG_ANY (45_indicator R215). -/
def execIndProgAny (p : Byte) (s : State) : Host.Outcome State Fault Refusal := .next (indProgAny p s)

/-- IND.ENDED (45_indicator R216). -/
def execIndEnded (s : State) : Host.Outcome State Fault Refusal := .next (indEnded s)

/-- IND.IGN (45_indicator R217). -/
def execIndIgn (p : Byte) (s : State) : Host.Outcome State Fault Refusal := .next (indIgn p s)

/-- IND.BLINK (45_indicator R218). -/
def execIndBlink (s : State) : Host.Outcome State Fault Refusal := .next (indBlink s)

/-- IND.FRAME (45_indicator R219). -/
def execIndFrame (s : State) : Host.Outcome State Fault Refusal := .next (indFrame s)

end Sys2Proof.Machine
end

