-- ==== Sys2Proof/Machine/Input.lean ====
section
/-! DEFINITION. The input role's state machine: key operations of the mirror and the empty receive handler
(44_input). -/

namespace Sys2Proof.Machine

/-- A key code to the display: the one message of most key operations (44_input R191 to R197). -/
def tellDisplay (p : Byte) (s : State) : State :=
  send .inp s.cfg.addrDsp p s

/-- `INP.WAKE` (44_input R191). -/
def inpWake (k : Key) (s : State) : State :=
  setSt .inp .selectSpeed (tellDisplay (keycode k) s)

/-- `INP.SPEED` (44_input R192). -/
def inpSpeed (d : Digit) (s : State) : State :=
  setSt .inp .selectMode (tellDisplay (digitCode d) s)

/-- `INP.MODE_NT` (44_input R193). -/
def inpModeNt (d : Digit) (s : State) : State :=
  setSt .inp .noTimer (tellDisplay (digitCode d) s)

/-- `INP.MODE_T` (44_input R194). -/
def inpModeT (s : State) : State :=
  setSt .inp .enterTimer (tellDisplay 0x30 s)

/-- `INP.T_DEL` (44_input R195). -/
def inpTDel (s : State) : State :=
  tellDisplay s.cfg.dDelete s

/-- `INP.T_OK` (44_input R196). -/
def inpTOk (s : State) : State :=
  setSt .inp .timerRunning (tellDisplay s.cfg.dConfirm s)

/-- `INP.T_DIGIT` (44_input R197). -/
def inpTDigit (d : Digit) (s : State) : State :=
  tellDisplay (digitCode d) s

/-- `INP.RUN_DIGIT`, `FWD_DIGIT`: actuator first, display second (44_input R198). -/
def inpRunDigit (d : Digit) (s : State) : State :=
  tellDisplay (digitCode d) (send .inp s.cfg.addrAct (digitCode d) s)

/-- `INP.RUN_RESET`, `RESET_ALL`: display, indicator, actuator (44_input R199). -/
def inpRunReset (s : State) : State :=
  setSt .inp .standby
    (send .inp s.cfg.addrAct s.cfg.aReset
      (send .inp s.cfg.addrInd s.cfg.iReset (tellDisplay s.cfg.dReset s)))

/-- `INP.IGN` (44_input R200). -/
def inpIgn (_k : Key) (s : State) : State := s

/-- `INP.RX(p)`: every accepted byte is ignored (44_input R201). -/
def inpRx (_p : Byte) (s : State) : State := s

/-- INP.WAKE (44_input R191). -/
def execInpWake (k : Key) (s : State) : Host.Outcome State Fault Refusal := .next (inpWake k s)

/-- INP.SPEED (44_input R192). -/
def execInpSpeed (d : Digit) (s : State) : Host.Outcome State Fault Refusal := .next (inpSpeed d s)

/-- INP.MODE_NT (44_input R193). -/
def execInpModeNt (d : Digit) (s : State) : Host.Outcome State Fault Refusal := .next (inpModeNt d s)

/-- INP.MODE_T (44_input R194). -/
def execInpModeT (s : State) : Host.Outcome State Fault Refusal := .next (inpModeT s)

/-- INP.T_DEL (44_input R195). -/
def execInpTDel (s : State) : Host.Outcome State Fault Refusal := .next (inpTDel s)

/-- INP.T_OK (44_input R196). -/
def execInpTOk (s : State) : Host.Outcome State Fault Refusal := .next (inpTOk s)

/-- INP.T_DIGIT (44_input R197). -/
def execInpTDigit (d : Digit) (s : State) : Host.Outcome State Fault Refusal := .next (inpTDigit d s)

/-- INP.RUN_DIGIT (44_input R198). -/
def execInpRunDigit (d : Digit) (s : State) : Host.Outcome State Fault Refusal := .next (inpRunDigit d s)

/-- INP.RUN_RESET (44_input R199). -/
def execInpRunReset (s : State) : Host.Outcome State Fault Refusal := .next (inpRunReset s)

/-- INP.IGN (44_input R200). -/
def execInpIgn (k : Key) (s : State) : Host.Outcome State Fault Refusal := .next (inpIgn k s)

/-- INP.RX (44_input R201). -/
def execInpRx (p : Byte) (s : State) : Host.Outcome State Fault Refusal := .next (inpRx p s)

end Sys2Proof.Machine
end

