-- ==== Sys2Proof/Machine/Framer.lean ====
section
/-! DEFINITION. The Framed Addressed Channel and the Bus Transceiver Control (40_framer): reception of a
character, the slot of a transmitter, and what a node does at the instant its queue becomes empty. -/

namespace Sys2Proof.Machine

/-- `m.RX(p)`: the receive handler of the role (40_framer R116). -/
def rx (m : NodeId) (p : Byte) (s : State) : State :=
  match m with
  | .inp => inpRx p s
  | .dsp => dspRx p s
  | .ind => indRx p s
  | .act => actRx p s

/-- `RXA(m, b)` (40_framer R114). -/
def rxa (m : NodeId) (b : Byte) (s : State) : State :=
  setFilter m (decide (b ≠ s.cfg.addr m)) s

/-- `RXD.DROP(m, b)` (40_framer R115). -/
def rxdDrop (m : NodeId) (_b : Byte) (s : State) : State :=
  setFilter m true s

/-- An accepted byte: an idle node handles it at once, a busy node keeps it (40_framer R116). -/
def acceptByte (m : NodeId) (p : Byte) (s : State) : State :=
  if s.idle m then rx m p s else keepByte m p s

/-- `RXD.ACC(m, b)` (40_framer R116): the filter closes and the byte is accepted. -/
def rxdAcc (m : NodeId) (p : Byte) (s : State) : State :=
  acceptByte m p (setFilter m true s)

/-- `RXCHAR(m, c)` (40_framer R113). A node held in reset ignores bus characters (70_reset R283). -/
def rxChar (m : NodeId) (c : Char9) (s : State) : State :=
  if (s.node m).rst then s
  else if c.marker then rxa m c.byte s
  else if (s.node m).filter then rxdDrop m c.byte s
  else rxdAcc m c.byte s

/-- Every node other than the transmitter receives the character (40_framer R112, R113, R120). Each reception
touches its own node's registers alone, so the order of the list is of no effect (log 11). -/
def deliver (n : NodeId) (c : Char9) (s : State) : State :=
  allNodes.foldl (fun t m => if m = n then t else rxChar m c t) s

/-- `RXH(n)`: the pending byte is handled (40_framer R118). -/
def rxh (n : NodeId) (s : State) : State :=
  rx n (s.node n).rxBuf (setRxPend n false s)

/-- The pending tick is handled (40_framer R118). -/
def pendingTick (s : State) : State :=
  dspTick (modDisp (fun d => { d with ctPend := false }) s)

/-- Handle the pending byte of an idle node, if it has one. -/
def takeByte (n : NodeId) (s : State) : State :=
  if s.idle n && (s.node n).rxPend then rxh n s else s

/-- Handle the pending tick of an idle display, if it has one. -/
def takeTick (s : State) : State :=
  if s.idle .dsp && s.disp.ctPend then pendingTick s else s

/-- Both events are pending at the display: which comes first is open (60_exceptions R259). The second is handled
only if the first leaves the node idle. -/
def handleBoth (byteFirst : Bool) (s : State) : State :=
  match byteFirst with
  | true => takeTick (takeByte .dsp s)
  | false => takeByte .dsp (takeTick s)

/-- `IDLE_ENTRY(n)` (40_framer R118): the pending events are handled one after another while the node stays
idle. Where the display has both, the order is a free choice (log 6) and the counter of free values advances. -/
def idleEntry (n : NodeId) (s : State) : State :=
  match n with
  | .inp => takeByte .inp s
  | .ind => takeByte .ind s
  | .act => takeByte .act s
  | .dsp =>
    if s.dsp.rxPend && s.disp.ctPend then
      handleBoth (Config.freeChoice s.free) { s with free := s.free + 1 }
    else takeTick (takeByte .dsp s)

/-- Whether a node other than `n` is transmit-enabled (40_framer R122). -/
def othersTransmit (n : NodeId) (s : State) : Bool :=
  allNodes.any (fun m => decide (m ≠ n) && (s.node m).txEn)

/-- One slot of node `n` with the character `c` at the head of its queue (40_framer R112). -/
def slot (n : NodeId) (c : Char9) (rest : List Char9) (s : State) : State :=
  let s1 := setTxq n rest (setTxEn n false (deliver n c (setTxEn n true s)))
  if rest = [] then idleEntry n s1 else s1

/-! ## The meanings -/

/-- SEND (40_framer R110). -/
def execSend (n : NodeId) (a p : Byte) (s : State) : Host.Outcome State Fault Refusal := .next (send n a p s)

/-- TXC (40_framer R112). With an empty queue there is no slot to take and nothing happens (log 8); a slot that
overlaps another node's is the contention of R122. -/
def execTxc (n : NodeId) (s : State) : Host.Outcome State Fault Refusal :=
  match (s.node n).txq with
  | [] => .next s
  | c :: rest => if othersTransmit n s then .fault .busContention else .next (slot n c rest s)

/-- RXA (40_framer R114). -/
def execRxa (m : NodeId) (b : Byte) (s : State) : Host.Outcome State Fault Refusal := .next (rxa m b s)

/-- RXD.DROP (40_framer R115). -/
def execRxdDrop (m : NodeId) (b : Byte) (s : State) : Host.Outcome State Fault Refusal := .next (rxdDrop m b s)

/-- RXD.ACC (40_framer R116). -/
def execRxdAcc (m : NodeId) (p : Byte) (s : State) : Host.Outcome State Fault Refusal := .next (rxdAcc m p s)

/-- RXH (40_framer R118). -/
def execRxh (n : NodeId) (s : State) : Host.Outcome State Fault Refusal := .next (rxh n s)

end Sys2Proof.Machine
end

