-- ==== Sys2Proof/Machine/Dispatch.lean ====
section
/-! DEFINITION. One arm per operation of 30_encoding R92, each one call of its meaning. -/

namespace Sys2Proof.Machine

def exec (i : Instr) (s : State) : Host.Outcome State Fault Refusal :=
  match i with
  | .send n a p => Sys2Proof.Machine.execSend n a p s
  | .txc n => Sys2Proof.Machine.execTxc n s
  | .rxa m b => Sys2Proof.Machine.execRxa m b s
  | .rxdDrop m b => Sys2Proof.Machine.execRxdDrop m b s
  | .rxdAcc m p => Sys2Proof.Machine.execRxdAcc m p s
  | .rxh n => Sys2Proof.Machine.execRxh n s
  | .dspWake p => Sys2Proof.Machine.execDspWake p s
  | .dspSpeed d => Sys2Proof.Machine.execDspSpeed d s
  | .dspModeNt d => Sys2Proof.Machine.execDspModeNt d s
  | .dspModeT => Sys2Proof.Machine.execDspModeT s
  | .dspTDel => Sys2Proof.Machine.execDspTDel s
  | .dspTOk => Sys2Proof.Machine.execDspTOk s
  | .dspTDigit d => Sys2Proof.Machine.execDspTDigit d s
  | .dspRunReset => Sys2Proof.Machine.execDspRunReset s
  | .dspRunSpeed d => Sys2Proof.Machine.execDspRunSpeed d s
  | .dspEndReset => Sys2Proof.Machine.execDspEndReset s
  | .dspIgn p => Sys2Proof.Machine.execDspIgn p s
  | .dspTick => Sys2Proof.Machine.execDspTick s
  | .dspSec bar per => Sys2Proof.Machine.execDspSec bar per s
  | .dspBar => Sys2Proof.Machine.execDspBar s
  | .dspPer => Sys2Proof.Machine.execDspPer s
  | .dspFin => Sys2Proof.Machine.execDspFin s
  | .ctStart total => Sys2Proof.Machine.execCtStart total s
  | .ctStop => Sys2Proof.Machine.execCtStop s
  | .ctTick => Sys2Proof.Machine.execCtTick s
  | .ctSecond => Sys2Proof.Machine.execCtSecond s
  | .ctProgress k => Sys2Proof.Machine.execCtProgress k s
  | .dcStart => Sys2Proof.Machine.execDcStart s
  | .dcStop => Sys2Proof.Machine.execDcStop s
  | .dcSpeed d => Sys2Proof.Machine.execDcSpeed d s
  | .dcTick => Sys2Proof.Machine.execDcTick s
  | .inpWake k => Sys2Proof.Machine.execInpWake k s
  | .inpSpeed d => Sys2Proof.Machine.execInpSpeed d s
  | .inpModeNt d => Sys2Proof.Machine.execInpModeNt d s
  | .inpModeT => Sys2Proof.Machine.execInpModeT s
  | .inpTDel => Sys2Proof.Machine.execInpTDel s
  | .inpTOk => Sys2Proof.Machine.execInpTOk s
  | .inpTDigit d => Sys2Proof.Machine.execInpTDigit d s
  | .inpRunDigit d => Sys2Proof.Machine.execInpRunDigit d s
  | .inpRunReset => Sys2Proof.Machine.execInpRunReset s
  | .inpIgn k => Sys2Proof.Machine.execInpIgn k s
  | .inpRx p => Sys2Proof.Machine.execInpRx p s
  | .indReset => Sys2Proof.Machine.execIndReset s
  | .indStartNt => Sys2Proof.Machine.execIndStartNt s
  | .indStartWt => Sys2Proof.Machine.execIndStartWt s
  | .indProg => Sys2Proof.Machine.execIndProg s
  | .indProgAny p => Sys2Proof.Machine.execIndProgAny p s
  | .indEnded => Sys2Proof.Machine.execIndEnded s
  | .indIgn p => Sys2Proof.Machine.execIndIgn p s
  | .indBlink => Sys2Proof.Machine.execIndBlink s
  | .indFrame => Sys2Proof.Machine.execIndFrame s
  | .actReset => Sys2Proof.Machine.execActReset s
  | .actEnded => Sys2Proof.Machine.execActEnded s
  | .actSpeed d => Sys2Proof.Machine.execActSpeed d s
  | .actIgn p => Sys2Proof.Machine.execActIgn p s
  | .actTick => Sys2Proof.Machine.execActTick s

end Sys2Proof.Machine
end

