-- ==== Sys2Proof/Machine/Events.lean ====
section
/-! DEFINITION. The environment: which input comes next, which operation it starts at its node now (60_exceptions
R257), and what becomes of an input that starts none (R258). -/

namespace Sys2Proof.Machine

/-- The next input: the head of the script, or, with no script left, the next event of the free schedule
(log 5). -/
def nextInput (s : State) : Input × State :=
  match s.inputs with
  | i :: rest => (i, { s with inputs := rest })
  | [] => (.ev (Config.freeEvent s.free), { s with free := s.free + 1 })

/-- The operation an event starts (60_exceptions R257, R258): only at a node out of reset, and for a handler
only at an idle node. The blink, frame and duty ticks are never delayed (R235, R289). -/
def selectEvent (e : Event) (s : State) : Option Instr :=
  match e with
  | .slot n => if (s.node n).rst || s.idle n then none else some (.txc n)
  | .overlap _ _ => none
  | .key k => if s.inp.rst || !s.idle .inp then none else some (keyInstr s.cfg s.inp.st k)
  | .ctTick => if s.dsp.rst || !s.idle .dsp then none else some .dspTick
  | .dcTick => if s.act.rst then none else some .actTick
  | .blinkTick => if s.ind.rst then none else some .indBlink
  | .frameTick => if s.ind.rst then none else some .indFrame
  | .resetOn _ => none
  | .resetOff _ => none

/-- The operation an input starts. -/
def select (i : Input) (s : State) : Option Instr :=
  match i with
  | .ev e => selectEvent e s
  | .char m c => if (s.node m).rst then none else some (charInstr m (s.node m).filter c)
  | .byte m p =>
    if (s.node m).rst || !s.idle m then none else some (payloadInstr s.cfg m (s.node m).st p)

/-- Two nodes' slots overlap in time (40_framer R122): `a` is transmit-enabled when `b` starts its slot. Where
one of them has nothing to send, or they are one node, no overlap can occur and nothing happens. -/
def overlapSlots (a b : NodeId) (s : State) : Host.Outcome State Fault Refusal :=
  if a = b || s.idle a || s.idle b then .next s else execTxc b (setTxEn a true s)

/-- What becomes of an event that starts no operation: a tick at a busy display waits (60_exceptions R258), at
a stopped engine too (log 25), a
node's reset input changes (70_reset R280, R283), slots overlap (40_framer R122); a slot with nothing to send,
a key at a busy input node (10_state R55) and whatever reaches a node in reset (R283) leave no trace. -/
def absorbEvent (e : Event) (s : State) : Host.Outcome State Fault Refusal :=
  match e with
  | .slot _ => .next s
  | .overlap a b => overlapSlots a b s
  | .key _ => .next s
  | .ctTick => if s.dsp.rst then .next s else .next (keepTick s)
  | .dcTick => .next s
  | .blinkTick => .next s
  | .frameTick => .next s
  | .resetOn n => .next (holdReset n s)
  | .resetOff n => .next (releaseReset n s)

/-- What becomes of an input that starts no operation; an accepted byte at a busy node waits (40_framer R116). -/
def absorb (i : Input) (s : State) : Host.Outcome State Fault Refusal :=
  match i with
  | .ev e => absorbEvent e s
  | .char _ _ => .next s
  | .byte m p => if (s.node m).rst then .next s else .next (keepByte m p s)

/-- The state in which the very next step reads the bytes of a table word in its context (log 15): the node the
word is for is out of reset with the filter, or idle in the session state, that the word's row asks for, and
the word waits at the head of the script. A word that is no character leaves the state as it is. -/
def placeWord (nbits w : Nat) (s : State) : State :=
  match takeChar (tableBytes nbits w) with
  | .error _ => s
  | .ok (c, _) =>
    match tableContext c s.ind.st with
    | .heard m filter =>
      { modNode m (fun x => { x with rst := false, filter := filter }) s with
        inputs := .char m c :: s.inputs }
    | .accepted m st =>
      { modNode m (fun x => { x with rst := false, txq := [], st := st }) s with
        inputs := .byte m c.byte :: s.inputs }
    | .pressed _ => s
    | .sent _ => s

end Sys2Proof.Machine
end

