-- ==== Sys2Proof/Machine/Step.lean ====
section
/-! DEFINITION. One step: the next input is read, the operation it selects is run; an input that selects none is
absorbed (60_exceptions R256 to R258). -/

namespace Sys2Proof.Machine

/-- One step of the four nodes. A malformed `CFG` is refused (U12). -/
def step (s : State) : Host.Outcome State Fault Refusal :=
  if s.cfg.wf then
    match select (nextInput s).1 (nextInput s).2 with
    | some i => exec i (nextInput s).2
    | none => absorb (nextInput s).1 (nextInput s).2
  else .refused .malformedCfg

/-- `s` with a word of the operation table placed where the next step reads its input. -/
def State.withFetchWord (s : State) (nbits w : Nat) : State :=
  placeWord nbits w s

end Sys2Proof.Machine
end

