-- ==== Sys2Proof/Safety.lean ====
section
/-! DEFINITION. The terms claims are stated in: running several operations or steps, what an operation leaves
alone, the state after a slot, the transition table of 30_encoding R98, and the invariants of the four nodes and
of the bus. -/

namespace Sys2Proof.Machine

/-- Several operations one after another, stopping at the first fault or refusal. -/
def execAll : List Instr → State → Host.Outcome State Fault Refusal
  | [], s => .next s
  | i :: is, s =>
    match exec i s with
    | .next t => execAll is t
    | .fault r => .fault r
    | .refused r => .refused r

/-- Several steps, stopping at the first fault or refusal. -/
def runSteps : Nat → State → Host.Outcome State Fault Refusal
  | 0, s => .next s
  | k + 1, s =>
    match step s with
    | .next t => runSteps k t
    | .fault r => .fault r
    | .refused r => .refused r

/-- Whether the actuator is enabled after `k` duty ticks (43_dutycycle R183, R184). -/
def enabledAfter (k : Nat) (s : State) : Bool :=
  match execAll (List.replicate k .dcTick) s with
  | .next t => t.actr.actEn
  | .fault _ => false
  | .refused _ => false

/-- A number read digit by digit from `a` on (00_scope R17). -/
def decimal (a : Nat) (ds : List Digit) : Nat :=
  ds.foldl (fun a d => a * 10 + d.val) a

/-- The accumulate-with-guard law of 00_scope R17 along a sequence of digits. -/
def guarded (minMax a : Nat) (ds : List Digit) : Nat :=
  ds.foldl (fun a d => if a * 10 + d.val ≤ minMax then a * 10 + d.val else a) a

/-- The model's own fields are the same in both states. -/
abbrev sameModel (s t : State) : Prop :=
  t.cfg = s.cfg ∧ t.ret = s.ret ∧ t.inputs = s.inputs ∧ t.free = s.free

/-- The role registers of node `n` are the same in both states (10_state R31 to R37). -/
def sameRole (n : NodeId) (s t : State) : Prop :=
  match n with
  | .inp => True
  | .dsp => t.disp = s.disp
  | .ind => t.indr = s.indr
  | .act => t.actr = s.actr

/-- Everything but the common registers of node `n` is the same in both states. -/
abbrev onlyNode (n : NodeId) (s t : State) : Prop :=
  (∀ m, m ≠ n → t.node m = s.node m) ∧ t.disp = s.disp ∧ t.indr = s.indr ∧ t.actr = s.actr ∧ sameModel s t

/-- Only node `m` changes, with its role registers, `ret` and `free` (10_state R44). -/
abbrev localTo (m : NodeId) (s t : State) : Prop :=
  (∀ k, k ≠ m → t.node k = s.node k ∧ sameRole k s t) ∧ t.cfg = s.cfg ∧ t.inputs = s.inputs

/-- What a handler of node `m` leaves alone: the other nodes, and its own node's reset input, filter,
transmit-enable, pending byte and pending tick (60_exceptions R256, R261; 41_display R142). `ret` is the model's
own field. -/
abbrev handlerFrame (m : NodeId) (s t : State) : Prop :=
  (∀ k, k ≠ m → t.node k = s.node k ∧ sameRole k s t)
  ∧ t.cfg = s.cfg ∧ t.inputs = s.inputs ∧ t.free = s.free
  ∧ (t.node m).rst = (s.node m).rst ∧ (t.node m).filter = (s.node m).filter
  ∧ (t.node m).txEn = (s.node m).txEn ∧ (t.node m).rxPend = (s.node m).rxPend
  ∧ (t.node m).rxBuf = (s.node m).rxBuf ∧ t.disp.ctPend = s.disp.ctPend

/-- The registers of node `n` hold the values of 10_state R58. `rx_buf` is not among them: it is unspecified. -/
def powerOnValues (n : NodeId) (s : State) : Prop :=
  (s.node n).st = .standby ∧ (s.node n).filter = true ∧ (s.node n).txEn = false ∧ (s.node n).txq = []
  ∧ (s.node n).rxPend = false
  ∧ match n with
    | .inp => True
    | .dsp => s.disp = ⟨0, 0, 0, 0, 0, 0, 0, false, false, false⟩
    | .ind => s.indr = ⟨0, false, false, false, false⟩
    | .act => s.actr = ⟨0, 0, false, false, false⟩

/-- `t` is `s` after the slot in which node `n` transmits `c`, before IDLE_ENTRY (40_framer R112): the sender's
queue is `rest` and nothing else of it has changed; every other node is as the operation that `c` selects at it
leaves it (R113), or untouched where it is held in reset (70_reset R283). -/
def afterSlot (n : NodeId) (c : Char9) (rest : List Char9) (s t : State) : Prop :=
  t.node n = { s.node n with txEn := false, txq := rest } ∧ sameRole n s t
  ∧ (∀ m, m ≠ n → (s.node m).rst = true → t.node m = s.node m ∧ sameRole m s t)
  ∧ (∀ m, m ≠ n → (s.node m).rst = false →
      ∃ u, exec (charInstr m (s.node m).filter c) s = .next u ∧ t.node m = u.node m ∧ sameRole m u t)
  ∧ t.cfg = s.cfg ∧ t.inputs = s.inputs ∧ t.free = s.free

/-- No node is held in reset and none is transmit-enabled, as between the slots of a running system. -/
def allListening (s : State) : Prop :=
  ∀ n, (s.node n).rst = false ∧ (s.node n).txEn = false

/-- The node an operation runs at; a slot concerns all four nodes (60_exceptions R256, 40_framer R112). -/
def homeNode : Instr → Option NodeId
  | .send n _ _ => some n
  | .txc _ => none
  | .rxa m _ => some m
  | .rxdDrop m _ => some m
  | .rxdAcc m _ => some m
  | .rxh n => some n
  | .dspWake _ => some .dsp
  | .dspSpeed _ => some .dsp
  | .dspModeNt _ => some .dsp
  | .dspModeT => some .dsp
  | .dspTDel => some .dsp
  | .dspTOk => some .dsp
  | .dspTDigit _ => some .dsp
  | .dspRunReset => some .dsp
  | .dspRunSpeed _ => some .dsp
  | .dspEndReset => some .dsp
  | .dspIgn _ => some .dsp
  | .dspTick => some .dsp
  | .dspSec _ _ => some .dsp
  | .dspBar => some .dsp
  | .dspPer => some .dsp
  | .dspFin => some .dsp
  | .ctStart _ => some .dsp
  | .ctStop => some .dsp
  | .ctTick => some .dsp
  | .ctSecond => some .dsp
  | .ctProgress _ => some .dsp
  | .dcStart => some .act
  | .dcStop => some .act
  | .dcSpeed _ => some .act
  | .dcTick => some .act
  | .inpWake _ => some .inp
  | .inpSpeed _ => some .inp
  | .inpModeNt _ => some .inp
  | .inpModeT => some .inp
  | .inpTDel => some .inp
  | .inpTOk => some .inp
  | .inpTDigit _ => some .inp
  | .inpRunDigit _ => some .inp
  | .inpRunReset => some .inp
  | .inpIgn _ => some .inp
  | .inpRx _ => some .inp
  | .indReset => some .ind
  | .indStartNt => some .ind
  | .indStartWt => some .ind
  | .indProg => some .ind
  | .indProgAny _ => some .ind
  | .indEnded => some .ind
  | .indIgn _ => some .ind
  | .indBlink => some .ind
  | .indFrame => some .ind
  | .actReset => some .act
  | .actEnded => some .act
  | .actSpeed _ => some .act
  | .actIgn _ => some .act
  | .actTick => some .act

/-- The complete set of transitions of the session state, node by node (30_encoding R98). -/
def transition (n : NodeId) (a b : SessionState) : Bool :=
  match n with
  | .dsp =>
    decide ((a, b) ∈ ([(.standby, .selectSpeed), (.selectSpeed, .selectMode), (.selectMode, .noTimer),
      (.selectMode, .enterTimer), (.enterTimer, .timerRunning), (.noTimer, .standby),
      (.timerRunning, .standby), (.timerRunning, .timerEnded), (.timerEnded, .standby)] :
        List (SessionState × SessionState)))
  | .inp =>
    decide ((a, b) ∈ ([(.standby, .selectSpeed), (.selectSpeed, .selectMode), (.selectMode, .noTimer),
      (.selectMode, .enterTimer), (.enterTimer, .timerRunning), (.noTimer, .standby),
      (.timerRunning, .standby)] : List (SessionState × SessionState)))
  | .ind =>
    decide (b = .standby ∨ b = .noTimer ∨ b = .timerRunning ∨ (a = .timerRunning ∧ b = .timerEnded))
  | .act =>
    decide (b = .standby ∨ (a = .standby ∧ b = .noTimer) ∨ (a = .noTimer ∧ b = .timerEnded))

/-- The ranges of the display's registers (10_state R31 to R33), with the remaining time within the total
(00_scope R18). -/
abbrev DisplayRanges (minMax : Nat) (d : DisplayRegs) : Prop :=
  d.speed.toNat ≤ 9 ∧ d.acc.toNat ≤ minMax ∧ d.totalMin.toNat ≤ minMax ∧ d.remSec.toNat ≤ 59
  ∧ d.remMin.toNat ≤ d.totalMin.toNat
  ∧ d.remMin.toNat * 60 + d.remSec.toNat ≤ d.totalMin.toNat * 60
  ∧ d.barIdx.toNat ≤ 14 ∧ d.perIdx.toNat ≤ 6

/-- The display's registers in their ranges, and the engine running exactly in `TimerRunning` (41_display
R151). -/
abbrev DisplayInv (s : State) : Prop :=
  DisplayRanges s.cfg.minMax s.disp ∧ (s.disp.ctRun = true ↔ s.dsp.st = .timerRunning)

/-- The mirror never reaches `TimerEnded` (10_state R22, 44_input R202). -/
abbrev InputInv (s : State) : Prop :=
  s.inp.st ≠ .timerEnded

/-- The indicator's registers (10_state R22, 45_indicator R220). -/
abbrev IndicatorInv (s : State) : Prop :=
  s.ind.st ≠ .selectSpeed ∧ s.ind.st ≠ .selectMode ∧ s.ind.st ≠ .enterTimer
  ∧ s.indr.progIdx.toNat ≤ 6 ∧ s.indr.blinkRun = s.indr.frameRun
  ∧ (s.indr.blinkRun = true ↔ s.ind.st = .noTimer ∨ s.ind.st = .timerRunning)

/-- The actuator's registers (10_state R22, R36, 46_actuator R236). -/
abbrev ActuatorInv (s : State) : Prop :=
  (s.act.st = .standby ∨ s.act.st = .noTimer ∨ s.act.st = .timerEnded)
  ∧ s.actr.speed.toNat ≤ 9 ∧ s.actr.dcCnt.toNat ≤ 99
  ∧ (s.actr.dcRun = true ↔ s.act.st = .noTimer)
  ∧ (s.actr.done = true ↔ s.act.st = .timerEnded)
  ∧ (s.actr.actEn = true → s.actr.dcRun = true)

/-- The framers: no node is transmit-enabled between slots (10_state R24), the passive nodes never send (R25)
and hold no pending byte (R26), the longest queues (R25, 41_display R149, 44_input R199), and an idle node has
no pending event (40_framer R118). -/
abbrev FramerInv (s : State) : Prop :=
  (∀ n, (s.node n).txEn = false) ∧ s.ind.txq = [] ∧ s.act.txq = []
  ∧ s.inp.txq.length ≤ 6 ∧ s.dsp.txq.length ≤ 8
  ∧ (∀ n, (s.node n).txq = [] → (s.node n).rxPend = false)
  ∧ (s.dsp.txq = [] → s.disp.ctPend = false)

/-- The invariant of the four nodes. -/
abbrev Inv (s : State) : Prop :=
  DisplayInv s ∧ InputInv s ∧ IndicatorInv s ∧ ActuatorInv s ∧ FramerInv s

/-- A queue of whole messages: an address character, then its data character (30_encoding R81). -/
def wholeMessages : List Char9 → Bool
  | [] => true
  | [_] => false
  | a :: d :: q => a.marker && !d.marker && wholeMessages q

/-- What a queue can look like: whole messages, or the data character left of one and then whole messages. -/
def queueShape (q : List Char9) : Bool :=
  wholeMessages q ||
    match q with
    | [] => true
    | d :: rest => !d.marker && wholeMessages rest

/-- Every address character of the queue names one of the addresses. -/
def addressesOnly (as : List Byte) (q : List Char9) : Bool :=
  q.all (fun c => !c.marker || decide (c.byte ∈ as))

/-- Whether an entry of the script is an event of the environment, not a port of one node taken alone. -/
def isEvent : Input → Bool
  | .ev _ => true
  | .char _ _ => false
  | .byte _ _ => false

/-- Who sends to whom (60_exceptions R265, 41_display R150): the input node addresses the other three, the
display the indicator and the actuator, nobody the input node, whose filter so never opens. The script holds
events alone. -/
abbrev BusInv (s : State) : Prop :=
  addressesOnly [s.cfg.addrDsp, s.cfg.addrInd, s.cfg.addrAct] s.inp.txq = true
  ∧ addressesOnly [s.cfg.addrInd, s.cfg.addrAct] s.dsp.txq = true
  ∧ s.ind.txq = [] ∧ s.act.txq = []
  ∧ s.inp.filter = true ∧ s.inp.rxPend = false
  ∧ s.inputs.all isEvent = true

/-- Every queue is whole messages but for the data character that may be left of the first. -/
abbrev QueueInv (s : State) : Prop :=
  ∀ n, queueShape (s.node n).txq = true

end Sys2Proof.Machine
end

