-- ==== Sys2Proof/Certificates/Slice0/Obligations.lean ====
section
/-! DEFINITION. The statements for the provers, in the order of the spec's files: reset, framer, display, countdown
engine, duty-cycle generator, input node, indicator, actuator, encodings, the step, and the whole machine. Where
a statement writes a next state out, everything it does not name is unchanged: that is the frame. -/

section

open Sys2Proof Sys2Proof.Machine

/-! ## Reset -/

/-- 70_reset R282: the outputs at power-on reset. -/
def Obligations.PowerOnOutputs : Prop :=
  State.reset.dsp.out = [.screenWelcome] ∧ State.reset.ind.out = [] ∧ State.reset.act.out = []
  ∧ State.reset.inp.out = []
  ∧ State.reset.actr.actEn = false ∧ State.reset.actr.done = false
  ∧ State.reset.indr.frame = false ∧ State.reset.indr.blinkPhase = false ∧ State.reset.indr.progIdx = 0

/-- 10_state R58: after power-on reset the registers hold their reset values, and a power cycle of one node
retains nothing of it. The other nodes are untouched (R280). That the reset input is asserted in one step and
released in another, and that the trace begins anew with the outputs of 70_reset R282, is the model's (log 10);
`rx_buf` is unspecified and not mentioned. -/
def Obligations.PowerCycleRetainsNothing : Prop :=
  (∀ n, powerOnValues n State.reset)
  ∧ ∀ (s : State) (n : NodeId) (rest : List Input), s.cfg.wf = true →
    s.inputs = .ev (.resetOn n) :: .ev (.resetOff n) :: rest →
    ∃ t, runSteps 2 s = .next t ∧ powerOnValues n t ∧ (t.node n).rst = false
      ∧ (t.node n).out = (if n = .dsp then [.screenWelcome] else [])
      ∧ (∀ m, m ≠ n → t.node m = s.node m ∧ sameRole m s t)
      ∧ t.cfg = s.cfg ∧ t.inputs = rest ∧ t.free = s.free

/-! ## Framer and bus -/

/-- 40_framer R110: SEND appends the two characters of the message; the node is busy from then on. That the
operation is well formed exactly at the two nodes with handlers that call it, and has this effect at the other
two, is the model's choice (log 22). -/
def Obligations.SendAppendsMessage : Prop :=
  ∀ (n : NodeId) (a p : Byte) (s : State),
    (∃ t, exec (.send n a p) s = .next t
      ∧ t.node n = { s.node n with txq := (s.node n).txq ++ [⟨true, a⟩, ⟨false, p⟩] }
      ∧ onlyNode n s t ∧ t.idle n = false)
    ∧ ((Instr.send n a p).wf s.cfg = true ↔ n = .inp ∨ n = .dsp)

/-- 40_framer R114, R115: an address character opens the filter of the node it names and closes every other's; a
data character at a closed filter is lost to the node. -/
def Obligations.FilterSelectsTheReceiver : Prop :=
  ∀ (m : NodeId) (b : Byte) (s : State),
    charInstr m (s.node m).filter ⟨true, b⟩ = .rxa m b
    ∧ (∃ t, exec (.rxa m b) s = .next t ∧ onlyNode m s t
      ∧ (b = s.cfg.addr m → t.node m = { s.node m with filter := false })
      ∧ (b ≠ s.cfg.addr m → t.node m = { s.node m with filter := true }))
    ∧ ((s.node m).filter = true →
      charInstr m (s.node m).filter ⟨false, b⟩ = .rxdDrop m b ∧ exec (.rxdDrop m b) s = .next s)

/-- 40_framer R116, R117: a data character at an open filter closes it; an idle node handles the byte at once, a
busy node keeps it, and a second byte overruns the first as `RX_OVERRUN` says. -/
def Obligations.OpenFilterAcceptsData : Prop :=
  ∀ (m : NodeId) (b : Byte) (s : State), (s.node m).filter = false →
    charInstr m (s.node m).filter ⟨false, b⟩ = .rxdAcc m b
    ∧ (s.idle m = true →
        exec (.rxdAcc m b) s = exec (payloadInstr s.cfg m (s.node m).st b) (setFilter m true s)
        ∧ ∃ t, exec (.rxdAcc m b) s = .next t)
    ∧ (s.idle m = false → (s.node m).rxPend = false →
        ∃ t, exec (.rxdAcc m b) s = .next t ∧ onlyNode m s t
          ∧ t.node m = { s.node m with filter := true, rxPend := true, rxBuf := b })
    ∧ (s.idle m = false → (s.node m).rxPend = true → s.cfg.rxOverrun = .keepOld →
        ∃ t, exec (.rxdAcc m b) s = .next t ∧ onlyNode m s t
          ∧ t.node m = { s.node m with filter := true })
    ∧ (s.idle m = false → (s.node m).rxPend = true → s.cfg.rxOverrun = .keepNew →
        ∃ t, exec (.rxdAcc m b) s = .next t ∧ onlyNode m s t
          ∧ t.node m = { s.node m with filter := true, rxBuf := b })

/-- 40_framer R118, the RXH part: the pending byte is handled as a byte accepted then would be. -/
def Obligations.PendingByteIsHandled : Prop :=
  ∀ (n : NodeId) (s : State),
    exec (.rxh n) s
      = exec (payloadInstr s.cfg n (s.node n).st (s.node n).rxBuf) (setRxPend n false s)
    ∧ ∃ t, exec (.rxh n) s = .next t

/-- 40_framer R113, R120: in a slot every other node receives the character, and the sender does not hear it. A slot
that leaves something in the queue does nothing more (R112); one that empties it goes on at the sender alone. -/
def Obligations.SlotReachesEveryOtherNode : Prop :=
  ∀ (n : NodeId) (c : Char9) (rest : List Char9) (s : State),
    (s.node n).txq = c :: rest → (∀ m, m ≠ n → (s.node m).txEn = false) →
    ∃ s1 t, afterSlot n c rest s s1 ∧ exec (.txc n) s = .next t
      ∧ (rest ≠ [] → t = s1)
      ∧ (∀ m, m ≠ n → t.node m = s1.node m ∧ sameRole m s1 t)
      ∧ (t.node n).filter = (s.node n).filter

/-- 40_framer R112, R118: the slot that empties the queue ends in IDLE_ENTRY. With no event pending the node is
idle; with one, it is handled; with both pending at the display the first is the free choice of 60_exceptions
R259 (log 6) and the second is handled only if the first leaves the display idle. -/
def Obligations.LastSlotEndsInIdleEntry : Prop :=
  ∀ (n : NodeId) (c : Char9) (s : State),
    (s.node n).txq = [c] → (∀ m, m ≠ n → (s.node m).txEn = false) →
    ∃ s1, afterSlot n c [] s s1
      ∧ ((s.node n).rxPend = false → (n = .dsp → s.disp.ctPend = false) →
          exec (.txc n) s = .next s1)
      ∧ ((s.node n).rxPend = true → (n = .dsp → s.disp.ctPend = false) →
          exec (.txc n) s = exec (.rxh n) s1)
      ∧ (n = .dsp → (s.node n).rxPend = false → s.disp.ctPend = true →
          exec (.txc n) s = exec .dspTick { s1 with disp := { s1.disp with ctPend := false } })
      ∧ (n = .dsp → (s.node n).rxPend = true → s.disp.ctPend = true →
          if Config.freeChoice s.free then
            ∃ u, exec (.rxh .dsp) { s1 with free := s.free + 1 } = .next u
              ∧ (u.idle .dsp = true →
                  exec (.txc n) s = exec .dspTick { u with disp := { u.disp with ctPend := false } })
              ∧ (u.idle .dsp = false → exec (.txc n) s = .next u)
          else
            ∃ u, exec .dspTick { s1 with disp := { s1.disp with ctPend := false }, free := s.free + 1 } = .next u
              ∧ (u.idle .dsp = true → exec (.txc n) s = exec (.rxh .dsp) u)
              ∧ (u.idle .dsp = false → exec (.txc n) s = .next u))
      ∧ ∃ t, exec (.txc n) s = .next t

/-- 40_framer R122 and U1: a slot that starts while another node is transmit-enabled is a fault. With an empty
queue there is no slot and nothing happens (the model's choice, log 8). The one step in which this arises is that
of the model's input `overlap` (log 7): two nodes that both have something to send overlap and fault, otherwise
only the script changes. -/
def Obligations.OverlappingSlotFaults : Prop :=
  ∀ (n m : NodeId) (s : State),
    (m ≠ n → (s.node m).txEn = true → (s.node n).txq ≠ [] → exec (.txc n) s = .fault .busContention)
    ∧ ((s.node n).txq = [] → exec (.txc n) s = .next s)
    ∧ ∀ rest, s.cfg.wf = true → s.inputs = .ev (.overlap m n) :: rest →
      (m ≠ n → (s.node m).txq ≠ [] → (s.node n).txq ≠ [] → step s = .fault .busContention)
      ∧ (m = n ∨ (s.node m).txq = [] ∨ (s.node n).txq = [] → step s = .next { s with inputs := rest })

/-- 40_framer R125 and 10_state R23: after a slot, a receiver's filter is open exactly if the character was the
address of the receiver; the sender's is untouched; and no operation but the reception of a character writes a
filter. -/
def Obligations.FilterFollowsTheLastCharacter : Prop :=
  (∀ (n m : NodeId) (c : Char9) (rest : List Char9) (s t : State),
    (s.node n).txq = c :: rest → exec (.txc n) s = .next t →
    (m ≠ n → (s.node m).rst = false → ((t.node m).filter = false ↔ c = ⟨true, s.cfg.addr m⟩))
    ∧ (t.node n).filter = (s.node n).filter)
  ∧ ∀ (i : Instr) (s t : State) (k : NodeId), exec i s = .next t →
    (∀ n, i ≠ .txc n) → (∀ b, i ≠ .rxa k b) → (∀ b, i ≠ .rxdDrop k b) → (∀ b, i ≠ .rxdAcc k b) →
    (t.node k).filter = (s.node k).filter

/-- 40_framer R112 to R116 (the worked example R123 for any sender, receiver and payload): a message with no
interference is two slots, after which its addressee has run the operation its payload selects, and every other
node has dropped the payload. -/
def Obligations.MessageRunsAtItsAddresseeAlone : Prop :=
  ∀ (n m : NodeId) (p : Byte) (s : State),
    s.cfg.wf = true → allListening s → m ≠ n →
    (s.node n).txq = [⟨true, s.cfg.addr m⟩, ⟨false, p⟩] → s.idle m = true →
    (s.node n).rxPend = false → (n = .dsp → s.disp.ctPend = false) →
    ∃ t u, execAll [.txc n, .txc n] s = .next t
      ∧ exec (payloadInstr s.cfg m (s.node m).st p) (setFilter m true s) = .next u
      ∧ t.node m = u.node m ∧ sameRole m u t
      ∧ t.node n = { s.node n with txq := [] } ∧ sameRole n s t
      ∧ ∀ k, k ≠ m → k ≠ n → t.node k = { s.node k with filter := true } ∧ sameRole k s t

/-! ## Display -/

/-- 41_display R131, R132, R134: wake, speed, and the choice of a timer. -/
def Obligations.DisplayWalksToTimerEntry : Prop :=
  ∀ (p : Byte) (d : Digit) (s : State),
    payloadInstr s.cfg .dsp .standby p = .dspWake p
    ∧ exec (.dspWake p) s
        = .next { s with dsp := { s.dsp with
            st := .selectSpeed, out := s.dsp.out ++ [.screenSpeedPrompt] } }
    ∧ (p.toNat = 0x30 + d.val → payloadInstr s.cfg .dsp .selectSpeed p = .dspSpeed d)
    ∧ exec (.dspSpeed d) s
        = .next { s with
            dsp := { s.dsp with st := .selectMode, out := s.dsp.out ++ [.screenModePrompt] }
            disp := { s.disp with speed := BitVec.ofNat 4 d.val } }
    ∧ payloadInstr s.cfg .dsp .selectMode 0x30 = .dspModeT
    ∧ exec .dspModeT s
        = .next { s with
            dsp := { s.dsp with st := .enterTimer, out := s.dsp.out ++ [.screenTimerEntry 0] }
            disp := { s.disp with acc := 0 } }

/-- 41_display R133, R136, R148: the two ways to start a session, each with its two messages. -/
def Obligations.DisplayStartsSession : Prop :=
  ∀ (p : Byte) (d : Digit) (s : State), s.cfg.wf = true →
    (p.toNat = 0x30 + d.val → d ≠ 0 → payloadInstr s.cfg .dsp .selectMode p = .dspModeNt d)
    ∧ exec (.dspModeNt d) s
        = .next { s with dsp := { s.dsp with
            st := .noTimer
            out := s.dsp.out ++ [.screenRunning s.disp.speed]
            txq := s.dsp.txq ++ [⟨true, s.cfg.addrInd⟩, ⟨false, s.cfg.iStartNt⟩,
              ⟨true, s.cfg.addrAct⟩, ⟨false, BitVec.ofNat 8 (0x30 + s.disp.speed.toNat)⟩] } }
    ∧ payloadInstr s.cfg .dsp .enterTimer s.cfg.dConfirm = .dspTOk
    ∧ exec .dspTOk s
        = .next { s with
            dsp := { s.dsp with
              st := .timerRunning
              out := s.dsp.out ++ [.screenRunning s.disp.speed]
              txq := s.dsp.txq ++ [⟨true, s.cfg.addrInd⟩, ⟨false, s.cfg.iStartWt⟩,
                ⟨true, s.cfg.addrAct⟩, ⟨false, BitVec.ofNat 8 (0x30 + s.disp.speed.toNat)⟩] }
            disp := { s.disp with
              totalMin := s.disp.acc, remMin := s.disp.acc, remSec := 0, barIdx := 0, perIdx := 0,
              parity := false, ctRun := true } }

/-- 41_display R135, R137: deleting and appending a digit of the timer length, with the overflow guard. -/
def Obligations.DisplayEditsTimerLength : Prop :=
  ∀ (p : Byte) (d : Digit) (s : State), s.cfg.wf = true →
    payloadInstr s.cfg .dsp .enterTimer s.cfg.dDelete = .dspTDel
    ∧ exec .dspTDel s
        = .next { s with
            dsp := { s.dsp with
              out := s.dsp.out ++ [.screenTimerEntry (BitVec.ofNat 8 (s.disp.acc.toNat / 10))] }
            disp := { s.disp with acc := BitVec.ofNat 8 (s.disp.acc.toNat / 10) } }
    ∧ (p.toNat = 0x30 + d.val → payloadInstr s.cfg .dsp .enterTimer p = .dspTDigit d)
    ∧ (s.disp.acc.toNat * 10 + d.val ≤ s.cfg.minMax →
        ∃ t, t.toNat = s.disp.acc.toNat * 10 + d.val
          ∧ exec (.dspTDigit d) s
            = .next { s with
                dsp := { s.dsp with out := s.dsp.out ++ [.screenTimerEntry t] }
                disp := { s.disp with acc := t } })
    ∧ (s.cfg.minMax < s.disp.acc.toNat * 10 + d.val → exec (.dspTDigit d) s = .next s)

/-- 00_scope R17: along any sequence of digits the accumulator follows the accumulate-with-guard law, and it is
the decimal number formed by the sequence where that number stays in range. -/
def Obligations.AccumulatorIsTheDecimalNumber : Prop :=
  ∀ (ds : List Digit) (s : State), s.cfg.wf = true →
    ∃ t, execAll (ds.map .dspTDigit) s = .next t
      ∧ t.disp = { s.disp with acc := t.disp.acc }
      ∧ t.disp.acc.toNat = guarded s.cfg.minMax s.disp.acc.toNat ds
      ∧ (decimal s.disp.acc.toNat ds ≤ s.cfg.minMax →
          t.disp.acc.toNat = decimal s.disp.acc.toNat ds)

/-- 41_display R138, R140, R142: RESET re-initialises the session registers and nothing of the framer, `ct_pend`
included; the display sends nothing. -/
def Obligations.DisplayResetReinitialises : Prop :=
  ∀ (s : State),
    payloadInstr s.cfg .dsp .noTimer s.cfg.dReset = .dspRunReset
    ∧ payloadInstr s.cfg .dsp .timerRunning s.cfg.dReset = .dspRunReset
    ∧ payloadInstr s.cfg .dsp .timerEnded s.cfg.dReset = .dspEndReset
    ∧ exec .dspRunReset s
        = .next { s with
            dsp := { s.dsp with st := .standby, out := s.dsp.out ++ [.screenWelcome] }
            disp := {
              speed := 0, acc := 0, totalMin := 0, remMin := 0, remSec := 0, barIdx := 0, perIdx := 0,
              parity := false, ctRun := false, ctPend := s.disp.ctPend } }
    ∧ exec .dspEndReset s
        = .next { s with
            dsp := { s.dsp with st := .standby, out := s.dsp.out ++ [.screenWelcome] }
            disp := {
              speed := 0, acc := 0, totalMin := 0, remMin := 0, remSec := 0, barIdx := 0, perIdx := 0,
              parity := false, ctRun := false, ctPend := s.disp.ctPend } }

/-- 41_display R139, R141: a digit in a running state changes the speed; every unmatched payload is ignored. -/
def Obligations.DisplaySpeedChangeAndIgnored : Prop :=
  ∀ (p : Byte) (d : Digit) (s : State), s.cfg.wf = true →
    (p.toNat = 0x30 + d.val → payloadInstr s.cfg .dsp .noTimer p = .dspRunSpeed d
      ∧ payloadInstr s.cfg .dsp .timerRunning p = .dspRunSpeed d)
    ∧ exec (.dspRunSpeed d) s
        = .next { s with
            dsp := { s.dsp with out := s.dsp.out ++ [.fieldSpeed (BitVec.ofNat 4 d.val)] }
            disp := { s.disp with speed := BitVec.ofNat 4 d.val } }
    ∧ (¬ (0x30 ≤ p.toNat ∧ p.toNat ≤ 0x39) →
        payloadInstr s.cfg .dsp .selectSpeed p = .dspIgn p
        ∧ payloadInstr s.cfg .dsp .selectMode p = .dspIgn p
        ∧ (p ≠ s.cfg.dDelete → p ≠ s.cfg.dConfirm → payloadInstr s.cfg .dsp .enterTimer p = .dspIgn p)
        ∧ (p ≠ s.cfg.dReset → payloadInstr s.cfg .dsp .noTimer p = .dspIgn p
          ∧ payloadInstr s.cfg .dsp .timerRunning p = .dspIgn p))
    ∧ (p ≠ s.cfg.dReset → payloadInstr s.cfg .dsp .timerEnded p = .dspIgn p)
    ∧ exec (.dspIgn p) s = .next s

/-- 41_display R143: the display's tick handler acts on what CT.TICK returns, which is never the result of a
CT.PROGRESS; a stopped engine returns NONE. -/
def Obligations.DisplayTickActsOnTheEnginesResult : Prop :=
  ∀ (s : State), ∃ u t, exec .ctTick s = .next u ∧ exec .dspTick s = .next t
    ∧ (∀ yes, u.ret ≠ .fired yes)
    ∧ (u.ret = .none → t = u)
    ∧ (u.ret = .finished → exec .dspFin u = .next t)
    ∧ (∀ bar per, u.ret = .advanced bar per → exec (.dspSec bar per) u = .next t)
    ∧ (s.disp.ctRun = false → t = { s with ret := .none })

/-- 41_display R144, R145, R146: the outputs of an elapsed second, in the order time field, bar, message. -/
def Obligations.DisplaySecondOutputs : Prop :=
  ∀ (bar per : Bool) (k : Nat) (s : State),
    (∃ s2, exec (.dspSec bar per) s = (if per then exec .dspPer s2 else .next s2)
      ∧ (if bar then
          exec .dspBar { s with dsp := { s.dsp with
            out := s.dsp.out ++ [.fieldTime s.disp.remMin s.disp.remSec] } } = .next s2
        else
          s2 = { s with dsp := { s.dsp with
            out := s.dsp.out ++ [.fieldTime s.disp.remMin s.disp.remSec] } })
      ∧ ∃ t, exec (.dspSec bar per) s = .next t)
    ∧ (s.disp.barIdx.toNat = k + 1 →
        exec .dspBar s = .next { s with dsp := { s.dsp with out := s.dsp.out ++ [.barSegment k] } })
    ∧ exec .dspPer s
        = .next { s with dsp := { s.dsp with
            txq := s.dsp.txq ++ [⟨true, s.cfg.addrInd⟩, ⟨false, s.cfg.iProgress⟩] } }

/-- 41_display R147, R149: the end of the timer, with the eight characters of the double broadcast. -/
def Obligations.DisplayFinishBroadcastsTwice : Prop :=
  ∀ (s : State),
    exec .dspFin s
      = .next { s with
          dsp := { s.dsp with
            st := .timerEnded
            out := s.dsp.out ++ [.screenEnd]
            txq := s.dsp.txq ++ [⟨true, s.cfg.addrInd⟩, ⟨false, s.cfg.iEnded⟩,
              ⟨true, s.cfg.addrAct⟩, ⟨false, s.cfg.aEnded⟩,
              ⟨true, s.cfg.addrInd⟩, ⟨false, s.cfg.iEnded⟩,
              ⟨true, s.cfg.addrAct⟩, ⟨false, s.cfg.aEnded⟩] }
          disp := { s.disp with ctRun := false } }

/-! ## Countdown engine -/

/-- 42_countdown R160, R161: starting and stopping the engine. -/
def Obligations.CountdownStartAndStop : Prop :=
  ∀ (total : Byte) (s : State),
    exec (.ctStart total) s
      = .next { s with disp := { s.disp with
          totalMin := total, remMin := total, remSec := 0, barIdx := 0, perIdx := 0, parity := false,
          ctRun := true } }
    ∧ exec .ctStop s = .next { s with disp := { s.disp with ctRun := false } }

/-- 42_countdown R162: a stopped engine ignores ticks; a running one toggles `parity` and advances on its falling
edge. What a call returns is held in the model's field `ret` (log 13). -/
def Obligations.CountdownTickTogglesParity : Prop :=
  ∀ (s : State),
    (s.disp.ctRun = false → exec .ctTick s = .next { s with ret := .none })
    ∧ (s.disp.ctRun = true → s.disp.parity = false →
        exec .ctTick s = .next { s with disp := { s.disp with parity := true }, ret := .none })
    ∧ (s.disp.ctRun = true → s.disp.parity = true →
        exec .ctTick s = exec .ctSecond { s with disp := { s.disp with parity := false } }
        ∧ ∃ t, exec .ctTick s = .next t)

/-- 42_countdown R163: the zero test, then the decrement with its borrow, then the two threshold tests, the bar's
first. -/
def Obligations.CountdownSecondDecrements : Prop :=
  ∀ (s : State),
    (s.disp.remMin = 0 → s.disp.remSec = 0 → exec .ctSecond s = .next { s with ret := .finished })
    ∧ (¬ (s.disp.remMin = 0 ∧ s.disp.remSec = 0) →
        ∃ s1 u v bar per,
          (s.disp.remSec = 0 → s1 = { s with disp := { s.disp with
            remSec := 59, remMin := s.disp.remMin - 1 } })
          ∧ (s.disp.remSec ≠ 0 → s1 = { s with disp := { s.disp with remSec := s.disp.remSec - 1 } })
          ∧ exec (.ctProgress .bar) s1 = .next u ∧ u.ret = .fired bar
          ∧ exec (.ctProgress .per) u = .next v ∧ v.ret = .fired per
          ∧ exec .ctSecond s = .next { v with ret := .advanced bar per })

/-- 42_countdown R164: the threshold test. The premise is the spec's own remark that the remaining time never
exceeds the total (00_scope R18), kept by every step (`StepKeepsTheNodeInvariant`). -/
def Obligations.CountdownThresholdTest : Prop :=
  ∀ (s : State), s.disp.remMin.toNat * 60 + s.disp.remSec.toNat ≤ s.disp.totalMin.toNat * 60 →
    ∃ total elapsed, total = s.disp.totalMin.toNat * 60
      ∧ elapsed = total - s.disp.remMin.toNat * 60 - s.disp.remSec.toNat
      ∧ (s.disp.barIdx.toNat < 14 ∧ (s.disp.barIdx.toNat + 1) * total ≤ elapsed * 14 →
          exec (.ctProgress .bar) s
            = .next { s with disp := { s.disp with barIdx := s.disp.barIdx + 1 }, ret := .fired true })
      ∧ (¬ (s.disp.barIdx.toNat < 14 ∧ (s.disp.barIdx.toNat + 1) * total ≤ elapsed * 14) →
          exec (.ctProgress .bar) s = .next { s with ret := .fired false })
      ∧ (s.disp.perIdx.toNat < 6 ∧ (s.disp.perIdx.toNat + 1) * total ≤ elapsed * 6 →
          exec (.ctProgress .per) s
            = .next { s with disp := { s.disp with perIdx := s.disp.perIdx + 1 }, ret := .fired true })
      ∧ (¬ (s.disp.perIdx.toNat < 6 ∧ (s.disp.perIdx.toNat + 1) * total ≤ elapsed * 6) →
          exec (.ctProgress .per) s = .next { s with ret := .fired false })

/-- 42_countdown R166: the counts over a full countdown. After `k` elapsed seconds of a countdown of at least one
minute, the remaining time is the total less `k`, each index counts the thresholds reached, and an event has just
fired exactly if this is one of the seconds `ceil(j * total_s / M)`. -/
def Obligations.FullCountdownFiresFourteenAndSix : Prop :=
  ∀ (s : State) (total : Byte) (k : Nat), 1 ≤ total.toNat → k ≤ total.toNat * 60 →
    ∃ t, execAll (.ctStart total :: List.replicate (2 * k) .ctTick) s = .next t
      ∧ t.disp.totalMin = total ∧ t.disp.ctRun = true ∧ t.disp.parity = false
      ∧ t.disp.remSec.toNat ≤ 59
      ∧ t.disp.remMin.toNat * 60 + t.disp.remSec.toNat + k = total.toNat * 60
      ∧ t.disp.barIdx.toNat = 14 * k / (total.toNat * 60)
      ∧ t.disp.perIdx.toNat = 6 * k / (total.toNat * 60)
      ∧ (1 ≤ k → ∃ bar per, t.ret = .advanced bar per
          ∧ (bar = true ↔ ∃ j, 1 ≤ j ∧ j ≤ 14 ∧ k = (j * (total.toNat * 60) + 13) / 14)
          ∧ (per = true ↔ ∃ j, 1 ≤ j ∧ j ≤ 6 ∧ k = (j * (total.toNat * 60) + 5) / 6))

/-- 42_countdown R167, R168: FINISHED is returned by tick number `2 * (60 * total + 1)` and by none before it, for
a total of zero minutes too, which fires no progress event. -/
def Obligations.CountdownFinishesAtItsTick : Prop :=
  ∀ (s : State) (total : Byte) (j : Nat), j ≤ 2 * (60 * total.toNat + 1) →
    ∃ t, execAll (.ctStart total :: List.replicate j .ctTick) s = .next t
      ∧ (1 ≤ j → (t.ret = .finished ↔ j = 2 * (60 * total.toNat + 1)))
      ∧ (120 * total.toNat ≤ j → t.disp.remMin = 0 ∧ t.disp.remSec = 0)
      ∧ (total = 0 → t.disp.barIdx = 0 ∧ t.disp.perIdx = 0)

/-- 70_reset R300 and 41_display R147: from DSP.T_OK with `acc = M`, the display is in `TimerEnded` from the handled
tick `2 * (60 * M + 1)` on, and in `TimerRunning` before it. -/
def Obligations.TimedSessionEndsAtItsTick : Prop :=
  ∀ (s : State) (j : Nat),
    ∃ t, execAll (.dspTOk :: List.replicate j .dspTick) s = .next t
      ∧ (j < 2 * (60 * s.disp.acc.toNat + 1) → t.dsp.st = .timerRunning)
      ∧ (2 * (60 * s.disp.acc.toNat + 1) ≤ j → t.dsp.st = .timerEnded ∧ t.disp.ctRun = false)

/-! ## Duty-cycle generator -/

/-- 43_dutycycle R180, R181, R182: starting, stopping and setting the speed level. -/
def Obligations.GeneratorStartStopSpeed : Prop :=
  ∀ (d : Digit) (s : State),
    exec .dcStart s = .next { s with actr := { s.actr with dcRun := true } }
    ∧ exec .dcStop s
        = .next { s with
            actr := { s.actr with dcRun := false, actEn := false }
            act := { s.act with
              out := s.act.out ++ (if s.actr.actEn then [.actEnable false] else []) } }
    ∧ exec (.dcSpeed d) s = .next { s with actr := { s.actr with speed := BitVec.ofNat 4 d.val } }

/-- 43_dutycycle R183: the compare is with the counter before the increment, the output event comes with a change
alone, the counter wraps from 99 to 0; a stopped generator ignores ticks. -/
def Obligations.GeneratorTickComparesThenCounts : Prop :=
  ∀ (s : State),
    (s.actr.dcRun = false → exec .dcTick s = .next s)
    ∧ (s.actr.dcRun = true →
        ∃ e : Bool, (e = true ↔ s.actr.dcCnt.toNat < s.actr.speed.toNat * 10 + 10)
          ∧ exec .dcTick s
            = .next { s with
                actr := { s.actr with
                  actEn := e, dcCnt := BitVec.ofNat 7 ((s.actr.dcCnt.toNat + 1) % 100) }
                act := { s.act with
                  out := s.act.out ++ (if e = s.actr.actEn then [] else [.actEnable e]) } })

/-- 43_dutycycle R184: over any 100 consecutive ticks of a running generator the enable is asserted on exactly
`speed*10 + 10`, and from a counter of 0 on the first ones. -/
def Obligations.DutyCycleIsExactlyTenSPlusTenPercent : Prop :=
  ∀ (s : State), s.actr.dcRun = true → s.actr.dcCnt.toNat ≤ 99 → s.actr.speed.toNat ≤ 9 →
    ((List.range 100).countP (fun k => enabledAfter (k + 1) s)) = s.actr.speed.toNat * 10 + 10
    ∧ (s.actr.dcCnt = 0 → ∀ k, k < 100 →
        (enabledAfter (k + 1) s = true ↔ k < s.actr.speed.toNat * 10 + 10))

/-! ## Input node -/

/-- 44_input R191 to R194: the key operations that walk the mirror to a mode. The key codes are the ASCII codes,
PRESUMED by the spec itself (00_scope R10, GK1; log 19). -/
def Obligations.InputWalksToMode : Prop :=
  ∀ (k : Key) (d : Digit) (s : State),
    (keycode (.digit d)).toNat = 0x30 + d.val ∧ keycode .star = 0x2A ∧ keycode .hash = 0x23
    ∧ keyInstr s.cfg .standby k = .inpWake k
    ∧ exec (.inpWake k) s
        = .next { s with inp := { s.inp with
            st := .selectSpeed, txq := s.inp.txq ++ [⟨true, s.cfg.addrDsp⟩, ⟨false, keycode k⟩] } }
    ∧ keyInstr s.cfg .selectSpeed (.digit d) = .inpSpeed d
    ∧ exec (.inpSpeed d) s
        = .next { s with inp := { s.inp with
            st := .selectMode
            txq := s.inp.txq ++ [⟨true, s.cfg.addrDsp⟩, ⟨false, keycode (.digit d)⟩] } }
    ∧ (d ≠ 0 → keyInstr s.cfg .selectMode (.digit d) = .inpModeNt d)
    ∧ exec (.inpModeNt d) s
        = .next { s with inp := { s.inp with
            st := .noTimer
            txq := s.inp.txq ++ [⟨true, s.cfg.addrDsp⟩, ⟨false, keycode (.digit d)⟩] } }
    ∧ keyInstr s.cfg .selectMode (.digit 0) = .inpModeT
    ∧ exec .inpModeT s
        = .next { s with inp := { s.inp with
            st := .enterTimer, txq := s.inp.txq ++ [⟨true, s.cfg.addrDsp⟩, ⟨false, 0x30⟩] } }

/-- 44_input R195, R196, R197: the key operations of the timer entry. -/
def Obligations.InputForwardsTimerEntry : Prop :=
  ∀ (d : Digit) (s : State),
    keyInstr s.cfg .enterTimer .star = .inpTDel
    ∧ exec .inpTDel s
        = .next { s with inp := { s.inp with
            txq := s.inp.txq ++ [⟨true, s.cfg.addrDsp⟩, ⟨false, s.cfg.dDelete⟩] } }
    ∧ keyInstr s.cfg .enterTimer .hash = .inpTOk
    ∧ exec .inpTOk s
        = .next { s with inp := { s.inp with
            st := .timerRunning
            txq := s.inp.txq ++ [⟨true, s.cfg.addrDsp⟩, ⟨false, s.cfg.dConfirm⟩] } }
    ∧ keyInstr s.cfg .enterTimer (.digit d) = .inpTDigit d
    ∧ exec (.inpTDigit d) s
        = .next { s with inp := { s.inp with
            txq := s.inp.txq ++ [⟨true, s.cfg.addrDsp⟩, ⟨false, keycode (.digit d)⟩] } }

/-- 44_input R198, R199: in a running state a digit goes to the actuator and the display, the reset key tells all
three nodes, the display first. -/
def Obligations.InputForwardsWhileRunning : Prop :=
  ∀ (d : Digit) (s : State), s.cfg.wf = true →
    keyInstr s.cfg .noTimer (.digit d) = .inpRunDigit d
    ∧ keyInstr s.cfg .timerRunning (.digit d) = .inpRunDigit d
    ∧ exec (.inpRunDigit d) s
        = .next { s with inp := { s.inp with
            txq := s.inp.txq ++ [⟨true, s.cfg.addrAct⟩, ⟨false, keycode (.digit d)⟩,
              ⟨true, s.cfg.addrDsp⟩, ⟨false, keycode (.digit d)⟩] } }
    ∧ keyInstr s.cfg .noTimer s.cfg.keyReset = .inpRunReset
    ∧ keyInstr s.cfg .timerRunning s.cfg.keyReset = .inpRunReset
    ∧ exec .inpRunReset s
        = .next { s with inp := { s.inp with
            st := .standby
            txq := s.inp.txq ++ [⟨true, s.cfg.addrDsp⟩, ⟨false, s.cfg.dReset⟩,
              ⟨true, s.cfg.addrInd⟩, ⟨false, s.cfg.iReset⟩,
              ⟨true, s.cfg.addrAct⟩, ⟨false, s.cfg.aReset⟩] } }

/-- 44_input R200, R201: the keys and the payloads the input node ignores. In `TimerEnded`, which the mirror never
reaches, every key falls under the table's last row. -/
def Obligations.InputIgnoresTheRest : Prop :=
  ∀ (k : Key) (p : Byte) (st : SessionState) (s : State), s.cfg.wf = true →
    ((k = .star ∨ k = .hash) →
      keyInstr s.cfg .selectSpeed k = .inpIgn k ∧ keyInstr s.cfg .selectMode k = .inpIgn k
      ∧ (k ≠ s.cfg.keyReset →
          keyInstr s.cfg .noTimer k = .inpIgn k ∧ keyInstr s.cfg .timerRunning k = .inpIgn k))
    ∧ keyInstr s.cfg .timerEnded k = .inpIgn k
    ∧ exec (.inpIgn k) s = .next s
    ∧ payloadInstr s.cfg .inp st p = .inpRx p
    ∧ exec (.inpRx p) s = .next s

/-! ## Indicator -/

/-- 45_indicator R211: RESET, in every state. -/
def Obligations.IndicatorReset : Prop :=
  ∀ (st : SessionState) (s : State),
    payloadInstr s.cfg .ind st s.cfg.iReset = .indReset
    ∧ exec .indReset s
        = .next { s with
            ind := { s.ind with
              st := .standby
              out := s.ind.out ++ (if s.indr.frame then [.indFrame false] else []) ++ [.indProgress 0] }
            indr := {
              progIdx := 0, blinkRun := false, frameRun := false, blinkPhase := false, frame := false } }

/-- 45_indicator R212, R213: the two START codes, in every state. -/
def Obligations.IndicatorStarts : Prop :=
  ∀ (st : SessionState) (s : State), s.cfg.wf = true →
    payloadInstr s.cfg .ind st s.cfg.iStartNt = .indStartNt
    ∧ exec .indStartNt s
        = .next { s with
            ind := { s.ind with st := .noTimer, out := s.ind.out ++ [.indProgress 0] }
            indr := { s.indr with progIdx := 0, blinkRun := true, frameRun := true } }
    ∧ payloadInstr s.cfg .ind st s.cfg.iStartWt = .indStartWt
    ∧ exec .indStartWt s
        = .next { s with
            ind := { s.ind with st := .timerRunning, out := s.ind.out ++ [.indProgress 0] }
            indr := { s.indr with progIdx := 0, blinkRun := true, frameRun := true } }

/-- 45_indicator R214, R215: PROGRESS-INCREMENT and the overlap convention; the index saturates at 6. -/
def Obligations.IndicatorProgressSaturates : Prop :=
  ∀ (p : Byte) (s : State), s.cfg.wf = true →
    payloadInstr s.cfg .ind .timerRunning s.cfg.iProgress = .indProg
    ∧ (p ≠ s.cfg.iReset → p ≠ s.cfg.iStartNt → p ≠ s.cfg.iStartWt → p ≠ s.cfg.iProgress →
        p ≠ s.cfg.iEnded → payloadInstr s.cfg .ind .timerRunning p = .indProgAny p)
    ∧ exec (.indProgAny p) s = exec .indProg s
    ∧ ∃ k : BitVec 3, (s.indr.progIdx.toNat < 6 → k.toNat = s.indr.progIdx.toNat + 1)
        ∧ (6 ≤ s.indr.progIdx.toNat → k = s.indr.progIdx)
        ∧ exec .indProg s
          = .next { s with
              ind := { s.ind with out := s.ind.out ++ [.indProgress k] }
              indr := { s.indr with progIdx := k } }

/-- 45_indicator R216, R217: TIMER-ENDED in `TimerRunning`, and everything the indicator ignores. -/
def Obligations.IndicatorEndedAndIgnored : Prop :=
  ∀ (p : Byte) (st : SessionState) (s : State), s.cfg.wf = true →
    payloadInstr s.cfg .ind .timerRunning s.cfg.iEnded = .indEnded
    ∧ exec .indEnded s
        = .next { s with
            ind := { s.ind with st := .timerEnded }
            indr := { s.indr with blinkRun := false, frameRun := false } }
    ∧ (st ≠ .timerRunning → p ≠ s.cfg.iReset → p ≠ s.cfg.iStartNt → p ≠ s.cfg.iStartWt →
        payloadInstr s.cfg .ind st p = .indIgn p)
    ∧ exec (.indIgn p) s = .next s

/-- 45_indicator R218, R219: the two local timers. -/
def Obligations.IndicatorTimersToggle : Prop :=
  ∀ (s : State),
    (s.indr.blinkRun = true →
      exec .indBlink s
        = .next { s with
            ind := { s.ind with out := s.ind.out ++ [.indBlink (!s.indr.blinkPhase)] }
            indr := { s.indr with blinkPhase := !s.indr.blinkPhase } })
    ∧ (s.indr.blinkRun = false → exec .indBlink s = .next s)
    ∧ (s.indr.frameRun = true →
      exec .indFrame s
        = .next { s with
            ind := { s.ind with out := s.ind.out ++ [.indFrame (!s.indr.frame)] }
            indr := { s.indr with frame := !s.indr.frame } })
    ∧ (s.indr.frameRun = false → exec .indFrame s = .next s)

/-! ## Actuator -/

/-- 46_actuator R231, R232: RESET and TIMER-ENDED, with their outputs in order. -/
def Obligations.ActuatorResetAndEnded : Prop :=
  ∀ (st : SessionState) (s : State), s.cfg.wf = true →
    payloadInstr s.cfg .act st s.cfg.aReset = .actReset
    ∧ exec .actReset s
        = .next { s with
            act := { s.act with
              st := .standby
              out := s.act.out ++ (if s.actr.actEn then [.actEnable false] else [])
                ++ (if s.actr.done then [.actDone false] else []) }
            actr := { speed := 0, dcCnt := 0, dcRun := false, actEn := false, done := false } }
    ∧ payloadInstr s.cfg .act .noTimer s.cfg.aEnded = .actEnded
    ∧ exec .actEnded s
        = .next { s with
            act := { s.act with
              st := .timerEnded
              out := s.act.out ++ (if s.actr.actEn then [.actEnable false] else [])
                ++ (if s.actr.done then [] else [.actDone true]) }
            actr := { s.actr with dcRun := false, actEn := false, done := true } }

/-- 46_actuator R233, R234, R235: a digit is stored in every state and starts the generator in `Standby` alone; the
rest is ignored; the tick is the generator's. -/
def Obligations.ActuatorSpeedIgnoredTick : Prop :=
  ∀ (p : Byte) (d : Digit) (st : SessionState) (s : State), s.cfg.wf = true →
    (p.toNat = 0x30 + d.val → payloadInstr s.cfg .act st p = .actSpeed d)
    ∧ (s.act.st = .standby →
        exec (.actSpeed d) s
          = .next { s with
              act := { s.act with st := .noTimer }
              actr := { s.actr with speed := BitVec.ofNat 4 d.val, dcRun := true } })
    ∧ (s.act.st ≠ .standby →
        exec (.actSpeed d) s = .next { s with actr := { s.actr with speed := BitVec.ofNat 4 d.val } })
    ∧ (st ≠ .noTimer → payloadInstr s.cfg .act st s.cfg.aEnded = .actIgn s.cfg.aEnded)
    ∧ (p ≠ s.cfg.aReset → p ≠ s.cfg.aEnded → ¬ (0x30 ≤ p.toNat ∧ p.toNat ≤ 0x39) →
        payloadInstr s.cfg .act st p = .actIgn p)
    ∧ exec (.actIgn p) s = .next s
    ∧ exec .actTick s = exec .dcTick s ∧ ∃ t, exec .actTick s = .next t

/-- 70_reset R286: a second RESET in immediate succession changes nothing at the actuator, and at the indicator
only repeats one output. -/
def Obligations.SecondResetChangesNothing : Prop :=
  ∀ (s : State),
    (∃ t, exec .actReset s = .next t ∧ exec .actReset t = .next t)
    ∧ ∃ t, exec .indReset s = .next t
      ∧ exec .indReset t = .next { t with ind := { t.ind with out := t.ind.out ++ [.indProgress 0] } }

/-! ## Encodings -/

/-- 30_encoding R80, R81, R88 and the operation table: words written out from the table, at the default `CFG`. The
two bytes of a character are its low eight bits and its marker (log 16). -/
def Obligations.TableWordsDecode : Prop :=
  decode Cfg.default (.heard .dsp true) [0x02, 0x01] = .ok (.rxa .dsp 0x02, [])
  ∧ decode Cfg.default (.heard .ind false) [0x35, 0x00] = .ok (.rxdAcc .ind 0x35, [])
  ∧ decode Cfg.default (.accepted .dsp .selectSpeed) [0x35, 0x00] = .ok (.dspSpeed 5, [])
  ∧ decode Cfg.default (.accepted .ind .standby) [0xF1, 0x00] = .ok (.indStartNt, [])
  ∧ decode Cfg.default (.accepted .act .noTimer) [0xF4, 0x00] = .ok (.actEnded, [])
  ∧ decode Cfg.default (.pressed .enterTimer) [0x2A] = .ok (.inpTDel, [])
  ∧ decode Cfg.default (.sent .inp) [0x02, 0x01, 0x35, 0x00] = .ok (.send .inp 0x02 0x35, [])

/-- Decoding what the encoder gives returns the operation, for every well-formed operation, every well-formed `CFG`
and every context its row admits (30_encoding R83 to R88). -/
def Obligations.DecodeAfterEncode : Prop :=
  ∀ (cfg : Cfg) (cx : Context) (i : Instr) (rest : List Byte),
    cfg.wf = true → i.wf cfg = true → admits cfg cx i = true →
    ∃ bs, encode cfg i = some bs ∧ decode cfg cx (bs ++ rest) = .ok (i, rest)

/-- What the decoder reads is a well-formed operation whose row admits the context, and its encoding is the bytes
read: no other bytes mean the same. -/
def Obligations.EncodeAfterDecode : Prop :=
  ∀ (cfg : Cfg) (cx : Context) (i : Instr) (bs rest : List Byte),
    cfg.wf = true → decode cfg cx bs = .ok (i, rest) →
    i.wf cfg = true ∧ admits cfg cx i = true ∧ ∃ pre, encode cfg i = some pre ∧ bs = pre ++ rest

/-- 30_encoding R83, R93: in every state of every node every payload selects exactly one operation, and every key
does at the input node; nothing is illegal. -/
def Obligations.EveryPayloadSelectsOneOperation : Prop :=
  ∀ (cfg : Cfg) (m : NodeId) (st : SessionState) (p : Byte) (k : Key), cfg.wf = true →
    (∃ i, decode cfg (.accepted m st) [p, 0] = .ok (i, [])
      ∧ ∀ j, (j.wf cfg = true ∧ admits cfg (.accepted m st) j = true ∧ encode cfg j = some [p, 0]) ↔ j = i)
    ∧ ∃ i, decode cfg (.pressed st) [keycode k] = .ok (i, [])
      ∧ ∀ j, (j.wf cfg = true ∧ admits cfg (.pressed st) j = true ∧ encode cfg j = some [keycode k]) ↔ j = i

/-! ## The step -/

/-- 60_exceptions R257: a step runs the operation the next input selects: the one decoded from the bits of a
character, a payload or a key, or the tick's or the slot's own. A character or a payload at one node taken alone is
an input form of the model's own (log 15); on the bus every node hears a character (`SlotReachesEveryOtherNode`). -/
def Obligations.StepRunsTheSelectedOperation : Prop :=
  ∀ (s : State) (x : Input) (rest : List Input) (i : Instr), s.cfg.wf = true → s.inputs = x :: rest →
    (∀ m c, x = .char m c → (s.node m).rst = false →
      decode s.cfg (.heard m (s.node m).filter) (charBytes c) = .ok (i, []) →
      step s = exec i { s with inputs := rest })
    ∧ (∀ m p, x = .byte m p → (s.node m).rst = false → s.idle m = true →
      decode s.cfg (.accepted m (s.node m).st) (payloadBytes p) = .ok (i, []) →
      step s = exec i { s with inputs := rest })
    ∧ (∀ k, x = .ev (.key k) → s.inp.rst = false → s.idle .inp = true →
      decode s.cfg (.pressed s.inp.st) [keycode k] = .ok (i, []) →
      step s = exec i { s with inputs := rest })
    ∧ (x = .ev .ctTick → s.dsp.rst = false → s.idle .dsp = true →
      step s = exec .dspTick { s with inputs := rest })
    ∧ (x = .ev .blinkTick → s.ind.rst = false → step s = exec .indBlink { s with inputs := rest })
    ∧ (x = .ev .frameTick → s.ind.rst = false → step s = exec .indFrame { s with inputs := rest })
    ∧ (x = .ev .dcTick → s.act.rst = false → step s = exec .actTick { s with inputs := rest })
    ∧ (∀ n, x = .ev (.slot n) → (s.node n).rst = false → s.idle n = false →
      step s = exec (.txc n) { s with inputs := rest })

/-- 60_exceptions R258: what becomes of an event at a busy node: a byte waits or overruns (40_framer R116, R117), a
countdown tick waits and a second one merges with it, a key is never seen. An accepted byte as an input of one node
taken alone is the model's own form (log 15). That a tick waits at a stopped engine too is the model's choice
(log 25). -/
def Obligations.BusyNodeKeepsByteAndTick : Prop :=
  ∀ (s : State) (rest : List Input), s.cfg.wf = true →
    (s.inputs = .ev .ctTick :: rest → s.dsp.rst = false → s.idle .dsp = false →
      step s = .next { s with inputs := rest, disp := { s.disp with ctPend := true } })
    ∧ (∀ k, s.inputs = .ev (.key k) :: rest → s.idle .inp = false →
      step s = .next { s with inputs := rest })
    ∧ ∀ m p, s.inputs = .byte m p :: rest → (s.node m).rst = false → s.idle m = false →
      ∃ t, step s = .next t
        ∧ onlyNode m { s with inputs := rest } t
        ∧ ((s.node m).rxPend = false → t.node m = { s.node m with rxPend := true, rxBuf := p })
        ∧ ((s.node m).rxPend = true → s.cfg.rxOverrun = .keepOld → t.node m = s.node m)
        ∧ ((s.node m).rxPend = true → s.cfg.rxOverrun = .keepNew → t.node m = { s.node m with rxBuf := p })

/-- The model's own conventions of a step (logs 5, 8, 10, 12, 15, 23): a malformed `CFG` is refused (U12); with no
script left the next event is the free schedule's; a slot with an empty queue and whatever reaches a node in
reset (70_reset R283) change nothing but the script. -/
def Obligations.StepConventions : Prop :=
  ∀ (s : State),
    (s.cfg.wf = false → step s = .refused .malformedCfg)
    ∧ (s.inputs = [] →
        step s = step { s with inputs := [.ev (Config.freeEvent s.free)], free := s.free + 1 })
    ∧ ∀ x rest, s.cfg.wf = true → s.inputs = x :: rest →
      ((∃ n, x = .ev (.slot n) ∧ s.idle n = true)
        ∨ (∃ m c, x = .char m c ∧ (s.node m).rst = true)
        ∨ (∃ m p, x = .byte m p ∧ (s.node m).rst = true)
        ∨ (∃ n, x = .ev (.slot n) ∧ (s.node n).rst = true)
        ∨ (∃ k, x = .ev (.key k) ∧ s.inp.rst = true)
        ∨ (x = .ev .ctTick ∧ s.dsp.rst = true)
        ∨ (x = .ev .dcTick ∧ s.act.rst = true)
        ∨ ((x = .ev .blinkTick ∨ x = .ev .frameTick) ∧ s.ind.rst = true)) →
      step s = .next { s with inputs := rest }

/-! ## The whole machine -/

/-- 60_exceptions R250: nothing raises. Every operation answers a next state in every state, but for a slot that
overlaps another node's (R122). -/
def Obligations.NoOperationRaises : Prop :=
  ∀ (i : Instr) (s : State), (∀ n, i = .txc n → ∀ m, m ≠ n → (s.node m).txEn = false) →
    ∃ t, exec i s = .next t

/-- 10_state R44: an operation writes only the registers of its own node; and `CFG` is constant (20_memory R75). -/
def Obligations.OperationsStayInTheirNode : Prop :=
  (∀ (i : Instr) (s t : State) (m : NodeId), homeNode i = some m → exec i s = .next t → localTo m s t)
  ∧ ∀ (s t : State), step s = .next t → t.cfg = s.cfg

/-- The invariants of the four nodes and of the bus hold at reset (10_state R33, R36; 45_indicator R220;
46_actuator R236; 60_exceptions R265). -/
def Obligations.ResetMeetsTheInvariants : Prop :=
  Inv State.reset ∧ BusInv State.reset ∧ QueueInv State.reset

/-- Every step keeps the ranges and the invariants of the four nodes: 10_state R22, R24, R26, R33, R36, 41_display
R151, 44_input R202, 45_indicator R220, 46_actuator R236, and 40_framer R118's consequence that an idle node has
nothing pending. -/
def Obligations.StepKeepsTheNodeInvariant : Prop :=
  ∀ (s t : State), Inv s → step s = .next t → Inv t

/-- 60_exceptions R265, 41_display R150: every step keeps who sends to whom, so that nothing ever reaches the input
node; and every queue stays whole messages but for the data character left of the first. -/
def Obligations.StepKeepsTheBusDiscipline : Prop :=
  ∀ (s t : State), BusInv s → QueueInv s → step s = .next t → BusInv t ∧ QueueInv t

/-- 30_encoding R98: in one step a node's session state stays as it is or makes one transition of the table, but
for power-on reset of the node, which leads to `Standby`. -/
def Obligations.OnlyTheListedTransitions : Prop :=
  ∀ (s t : State) (n : NodeId), Inv s → step s = .next t →
    (t.node n).st = (s.node n).st
    ∨ transition n (s.node n).st (t.node n).st = true
    ∨ ((t.node n).st = .standby
        ∧ ((nextInput s).1 = .ev (.resetOn n) ∨ (nextInput s).1 = .ev (.resetOff n)))

/-- 60_exceptions R256, R261 and 20_memory R73: while a node that sends is busy, nothing but the framer's reaction
and the pending flags of it changes, until its own slots have emptied its queue; a slot of its own that leaves
something in the queue only drops the head. -/
def Obligations.BusyNodeIsACriticalSection : Prop :=
  ∀ (s t : State) (n : NodeId), (n = .inp ∨ n = .dsp) → s.idle n = false → (s.node n).rst = false →
    (nextInput s).1 ≠ .ev (.resetOn n) → step s = .next t →
    ((nextInput s).1 ≠ .ev (.slot n) →
      t.node n = { s.node n with
        filter := (t.node n).filter, rxPend := (t.node n).rxPend, rxBuf := (t.node n).rxBuf }
      ∧ (n = .dsp → t.disp = { s.disp with ctPend := t.disp.ctPend }))
    ∧ ∀ c d rest, (nextInput s).1 = .ev (.slot n) → (s.node n).txq = c :: d :: rest →
      t.node n = { s.node n with txEn := false, txq := d :: rest } ∧ (n = .dsp → t.disp = s.disp)

/-- 20_memory R69: a node's characters leave its queue in the order its handlers appended them: a step drops at
most the head, appends at the end, and power-on reset empties the queue. -/
def Obligations.QueueKeepsItsOrder : Prop :=
  ∀ (s t : State) (n : NodeId), step s = .next t →
    (∃ k new, k ≤ 1 ∧ (t.node n).txq = (s.node n).txq.drop k ++ new)
    ∨ ((t.node n).txq = []
        ∧ ((nextInput s).1 = .ev (.resetOn n) ∨ (nextInput s).1 = .ev (.resetOff n)))

/-- 10_state R33, 45_indicator R220: in a step no progress index falls unless it is zeroed. -/
def Obligations.ProgressNeverFallsButToZero : Prop :=
  ∀ (s t : State), step s = .next t →
    (s.disp.barIdx.toNat ≤ t.disp.barIdx.toNat ∨ t.disp.barIdx = 0)
    ∧ (s.disp.perIdx.toNat ≤ t.disp.perIdx.toNat ∨ t.disp.perIdx = 0)
    ∧ (s.indr.progIdx.toNat ≤ t.indr.progIdx.toNat ∨ t.indr.progIdx = 0)

/-- 70_reset R291, H-5: after DSP.FIN and its eight slots, with one foreign address character of the input node
falling anywhere among them, the indicator and the actuator have both ended. The premise that the two finish
codes are one value is the default's (00_scope R8); with different values, and for a foreign data character, a
misrouted byte can mean RESET to its receiver and the claim fails. -/
def Obligations.DoubleTimerEndedSurvivesAForeignAddress : Prop :=
  ∀ (s : State) (a : Byte) (j : Nat), j ≤ 8 →
    s.cfg.wf = true → s.cfg.iEnded = s.cfg.aEnded →
    allListening s → s.dsp.txq = [] → s.inp.txq = [⟨true, a⟩] →
    s.ind.txq = [] → s.act.txq = [] → s.ind.st = .timerRunning → s.act.st = .noTimer →
    ∃ t, execAll (.dspFin :: (List.replicate j (.txc .dsp) ++ .txc .inp ::
        List.replicate (8 - j) (.txc .dsp))) s = .next t
      ∧ t.ind.st = .timerEnded ∧ t.act.st = .timerEnded

/-- 44_input R199, 60_exceptions R255: INP.RUN_RESET and its six slots, with no interference and every node idle,
bring all four nodes to `Standby` with their session registers at their reset values. -/
def Obligations.ResetKeyResetsAllFourNodes : Prop :=
  ∀ (s : State), s.cfg.wf = true → allListening s → (∀ n, s.idle n = true ∧ (s.node n).rxPend = false) →
    (s.dsp.st = .noTimer ∨ s.dsp.st = .timerRunning ∨ s.dsp.st = .timerEnded) →
    ∃ t, execAll (.inpRunReset :: List.replicate 6 (.txc .inp)) s = .next t
      ∧ (∀ n, (t.node n).st = .standby ∧ t.idle n = true)
      ∧ t.disp = {
          speed := 0, acc := 0, totalMin := 0, remMin := 0, remSec := 0, barIdx := 0, perIdx := 0,
          parity := false, ctRun := false, ctPend := s.disp.ctPend }
      ∧ t.indr = { progIdx := 0, blinkRun := false, frameRun := false, blinkPhase := false, frame := false }
      ∧ t.actr = { speed := 0, dcCnt := 0, dcRun := false, actEn := false, done := false }

end
end

