-- ==== Sys2Proof/Laws/State.lean ====
section
/-! SUPPORT. One lemma per field per update, true by rfl, so that no later proof unfolds a record update. -/

namespace Sys2Proof.Machine

/-! ## Reading a node record -/

@[simp] theorem node_inp (s : State) : s.node .inp = s.inp := rfl
@[simp] theorem node_dsp (s : State) : s.node .dsp = s.dsp := rfl
@[simp] theorem node_ind (s : State) : s.node .ind = s.ind := rfl
@[simp] theorem node_act (s : State) : s.node .act = s.act := rfl

/-! ## Changing a node record -/

@[simp] theorem modNode_inp_inp (f : Node → Node) (s : State) : (modNode .inp f s).inp = f s.inp := rfl
@[simp] theorem modNode_inp_dsp (f : Node → Node) (s : State) : (modNode .inp f s).dsp = s.dsp := rfl
@[simp] theorem modNode_inp_ind (f : Node → Node) (s : State) : (modNode .inp f s).ind = s.ind := rfl
@[simp] theorem modNode_inp_act (f : Node → Node) (s : State) : (modNode .inp f s).act = s.act := rfl
@[simp] theorem modNode_dsp_inp (f : Node → Node) (s : State) : (modNode .dsp f s).inp = s.inp := rfl
@[simp] theorem modNode_dsp_dsp (f : Node → Node) (s : State) : (modNode .dsp f s).dsp = f s.dsp := rfl
@[simp] theorem modNode_dsp_ind (f : Node → Node) (s : State) : (modNode .dsp f s).ind = s.ind := rfl
@[simp] theorem modNode_dsp_act (f : Node → Node) (s : State) : (modNode .dsp f s).act = s.act := rfl
@[simp] theorem modNode_ind_inp (f : Node → Node) (s : State) : (modNode .ind f s).inp = s.inp := rfl
@[simp] theorem modNode_ind_dsp (f : Node → Node) (s : State) : (modNode .ind f s).dsp = s.dsp := rfl
@[simp] theorem modNode_ind_ind (f : Node → Node) (s : State) : (modNode .ind f s).ind = f s.ind := rfl
@[simp] theorem modNode_ind_act (f : Node → Node) (s : State) : (modNode .ind f s).act = s.act := rfl
@[simp] theorem modNode_act_inp (f : Node → Node) (s : State) : (modNode .act f s).inp = s.inp := rfl
@[simp] theorem modNode_act_dsp (f : Node → Node) (s : State) : (modNode .act f s).dsp = s.dsp := rfl
@[simp] theorem modNode_act_ind (f : Node → Node) (s : State) : (modNode .act f s).ind = s.ind := rfl
@[simp] theorem modNode_act_act (f : Node → Node) (s : State) : (modNode .act f s).act = f s.act := rfl
@[simp] theorem modNode_cfg (n : NodeId) (f : Node → Node) (s : State) : (modNode n f s).cfg = s.cfg := by
  cases n <;> rfl
@[simp] theorem modNode_disp (n : NodeId) (f : Node → Node) (s : State) : (modNode n f s).disp = s.disp := by
  cases n <;> rfl
@[simp] theorem modNode_indr (n : NodeId) (f : Node → Node) (s : State) : (modNode n f s).indr = s.indr := by
  cases n <;> rfl
@[simp] theorem modNode_actr (n : NodeId) (f : Node → Node) (s : State) : (modNode n f s).actr = s.actr := by
  cases n <;> rfl
@[simp] theorem modNode_ret (n : NodeId) (f : Node → Node) (s : State) : (modNode n f s).ret = s.ret := by
  cases n <;> rfl
@[simp] theorem modNode_inputs (n : NodeId) (f : Node → Node) (s : State) : (modNode n f s).inputs = s.inputs := by
  cases n <;> rfl
@[simp] theorem modNode_free (n : NodeId) (f : Node → Node) (s : State) : (modNode n f s).free = s.free := by
  cases n <;> rfl

@[simp] theorem modNode_node_same (n : NodeId) (f : Node → Node) (s : State) :
    (modNode n f s).node n = f (s.node n) := by
  cases n <;> rfl

theorem modNode_node_ne {n m : NodeId} (h : m ≠ n) (f : Node → Node) (s : State) :
    (modNode n f s).node m = s.node m := by
  cases n <;> cases m <;> first | rfl | exact absurd rfl h

/-! ## Changing role registers and the model's own fields -/

@[simp] theorem modDisp_inp (f : DisplayRegs → DisplayRegs) (s : State) : (modDisp f s).inp = s.inp := rfl
@[simp] theorem modDisp_dsp (f : DisplayRegs → DisplayRegs) (s : State) : (modDisp f s).dsp = s.dsp := rfl
@[simp] theorem modDisp_ind (f : DisplayRegs → DisplayRegs) (s : State) : (modDisp f s).ind = s.ind := rfl
@[simp] theorem modDisp_act (f : DisplayRegs → DisplayRegs) (s : State) : (modDisp f s).act = s.act := rfl
@[simp] theorem modDisp_cfg (f : DisplayRegs → DisplayRegs) (s : State) : (modDisp f s).cfg = s.cfg := rfl
@[simp] theorem modDisp_disp (f : DisplayRegs → DisplayRegs) (s : State) : (modDisp f s).disp = f s.disp := rfl
@[simp] theorem modDisp_indr (f : DisplayRegs → DisplayRegs) (s : State) : (modDisp f s).indr = s.indr := rfl
@[simp] theorem modDisp_actr (f : DisplayRegs → DisplayRegs) (s : State) : (modDisp f s).actr = s.actr := rfl
@[simp] theorem modDisp_ret (f : DisplayRegs → DisplayRegs) (s : State) : (modDisp f s).ret = s.ret := rfl
@[simp] theorem modDisp_inputs (f : DisplayRegs → DisplayRegs) (s : State) : (modDisp f s).inputs = s.inputs := rfl
@[simp] theorem modDisp_free (f : DisplayRegs → DisplayRegs) (s : State) : (modDisp f s).free = s.free := rfl
@[simp] theorem modDisp_node (n : NodeId) (f : DisplayRegs → DisplayRegs) (s : State) : (modDisp f s).node n = s.node n := by
  cases n <;> rfl
@[simp] theorem modIndr_inp (f : IndicatorRegs → IndicatorRegs) (s : State) : (modIndr f s).inp = s.inp := rfl
@[simp] theorem modIndr_dsp (f : IndicatorRegs → IndicatorRegs) (s : State) : (modIndr f s).dsp = s.dsp := rfl
@[simp] theorem modIndr_ind (f : IndicatorRegs → IndicatorRegs) (s : State) : (modIndr f s).ind = s.ind := rfl
@[simp] theorem modIndr_act (f : IndicatorRegs → IndicatorRegs) (s : State) : (modIndr f s).act = s.act := rfl
@[simp] theorem modIndr_cfg (f : IndicatorRegs → IndicatorRegs) (s : State) : (modIndr f s).cfg = s.cfg := rfl
@[simp] theorem modIndr_disp (f : IndicatorRegs → IndicatorRegs) (s : State) : (modIndr f s).disp = s.disp := rfl
@[simp] theorem modIndr_indr (f : IndicatorRegs → IndicatorRegs) (s : State) : (modIndr f s).indr = f s.indr := rfl
@[simp] theorem modIndr_actr (f : IndicatorRegs → IndicatorRegs) (s : State) : (modIndr f s).actr = s.actr := rfl
@[simp] theorem modIndr_ret (f : IndicatorRegs → IndicatorRegs) (s : State) : (modIndr f s).ret = s.ret := rfl
@[simp] theorem modIndr_inputs (f : IndicatorRegs → IndicatorRegs) (s : State) : (modIndr f s).inputs = s.inputs := rfl
@[simp] theorem modIndr_free (f : IndicatorRegs → IndicatorRegs) (s : State) : (modIndr f s).free = s.free := rfl
@[simp] theorem modIndr_node (n : NodeId) (f : IndicatorRegs → IndicatorRegs) (s : State) : (modIndr f s).node n = s.node n := by
  cases n <;> rfl
@[simp] theorem modActr_inp (f : ActuatorRegs → ActuatorRegs) (s : State) : (modActr f s).inp = s.inp := rfl
@[simp] theorem modActr_dsp (f : ActuatorRegs → ActuatorRegs) (s : State) : (modActr f s).dsp = s.dsp := rfl
@[simp] theorem modActr_ind (f : ActuatorRegs → ActuatorRegs) (s : State) : (modActr f s).ind = s.ind := rfl
@[simp] theorem modActr_act (f : ActuatorRegs → ActuatorRegs) (s : State) : (modActr f s).act = s.act := rfl
@[simp] theorem modActr_cfg (f : ActuatorRegs → ActuatorRegs) (s : State) : (modActr f s).cfg = s.cfg := rfl
@[simp] theorem modActr_disp (f : ActuatorRegs → ActuatorRegs) (s : State) : (modActr f s).disp = s.disp := rfl
@[simp] theorem modActr_indr (f : ActuatorRegs → ActuatorRegs) (s : State) : (modActr f s).indr = s.indr := rfl
@[simp] theorem modActr_actr (f : ActuatorRegs → ActuatorRegs) (s : State) : (modActr f s).actr = f s.actr := rfl
@[simp] theorem modActr_ret (f : ActuatorRegs → ActuatorRegs) (s : State) : (modActr f s).ret = s.ret := rfl
@[simp] theorem modActr_inputs (f : ActuatorRegs → ActuatorRegs) (s : State) : (modActr f s).inputs = s.inputs := rfl
@[simp] theorem modActr_free (f : ActuatorRegs → ActuatorRegs) (s : State) : (modActr f s).free = s.free := rfl
@[simp] theorem modActr_node (n : NodeId) (f : ActuatorRegs → ActuatorRegs) (s : State) : (modActr f s).node n = s.node n := by
  cases n <;> rfl
@[simp] theorem setRet_inp (r : CallResult) (s : State) : (setRet r s).inp = s.inp := rfl
@[simp] theorem setRet_dsp (r : CallResult) (s : State) : (setRet r s).dsp = s.dsp := rfl
@[simp] theorem setRet_ind (r : CallResult) (s : State) : (setRet r s).ind = s.ind := rfl
@[simp] theorem setRet_act (r : CallResult) (s : State) : (setRet r s).act = s.act := rfl
@[simp] theorem setRet_cfg (r : CallResult) (s : State) : (setRet r s).cfg = s.cfg := rfl
@[simp] theorem setRet_disp (r : CallResult) (s : State) : (setRet r s).disp = s.disp := rfl
@[simp] theorem setRet_indr (r : CallResult) (s : State) : (setRet r s).indr = s.indr := rfl
@[simp] theorem setRet_actr (r : CallResult) (s : State) : (setRet r s).actr = s.actr := rfl
@[simp] theorem setRet_ret (r : CallResult) (s : State) : (setRet r s).ret = r := rfl
@[simp] theorem setRet_inputs (r : CallResult) (s : State) : (setRet r s).inputs = s.inputs := rfl
@[simp] theorem setRet_free (r : CallResult) (s : State) : (setRet r s).free = s.free := rfl
@[simp] theorem setRet_node (n : NodeId) (r : CallResult) (s : State) : (setRet r s).node n = s.node n := by
  cases n <;> rfl

end Sys2Proof.Machine
end

