-- ==== Sys2Proof/Laws/Effects.lean ====
section
/-! SUPPORT. What each shared operation does, said once: the outputs that come with a change alone, the receive
handler as the operation its table selects, the byte that waits, and what a countdown call can return. -/

namespace Sys2Proof.Laws

open Sys2Proof.Machine

/-! ## Outputs emitted on a change alone (10_state R54) -/

theorem setActEn_eq (e : Bool) (s : State) :
    setActEn e s = { s with
      actr := { s.actr with actEn := e }
      act := { s.act with out := s.act.out ++ (if e = s.actr.actEn then [] else [.actEnable e]) } } := by
  unfold setActEn
  split
  · next h => simp [h]
  · simp [emit, modNode, modActr]

theorem setDone_eq (d : Bool) (s : State) :
    setDone d s = { s with
      actr := { s.actr with done := d }
      act := { s.act with out := s.act.out ++ (if d = s.actr.done then [] else [.actDone d]) } } := by
  unfold setDone
  split
  · next h => simp [h]
  · simp [emit, modNode, modActr]

theorem clearFrame_eq (s : State) :
    clearFrame s = { s with
      indr := { s.indr with frame := false }
      ind := { s.ind with out := s.ind.out ++ (if s.indr.frame then [.indFrame false] else []) } } := by
  unfold clearFrame
  split
  · next h => simp [emit, modNode, modIndr]
  · next h =>
    have hf : s.indr.frame = false := by simpa using h
    have he : ({ s.indr with frame := false } : IndicatorRegs) = s.indr := by rw [← hf]
    simp [he]

/-! ## The receive handler -/

/-- A receive handler runs the operation its table selects (30_encoding R83, 41_display R130, 45_indicator R210,
46_actuator R230). -/
theorem exec_payloadInstr (m : NodeId) (p : Byte) (s : State) :
    exec (payloadInstr s.cfg m (s.node m).st p) s = .next (rx m p s) := by
  cases m with
  | inp => rfl
  | dsp =>
    simp only [payloadInstr, rx, dspRx, State.node]
    cases selectDsp s.cfg s.dsp.st p <;> rfl
  | ind =>
    simp only [payloadInstr, rx, indRx, State.node]
    cases selectInd s.cfg s.ind.st p <;> rfl
  | act =>
    simp only [payloadInstr, rx, actRx, State.node]
    cases selectAct s.cfg s.act.st p <;> rfl

/-- A character runs the operation its marker and the filter select (40_framer R113). -/
theorem exec_charInstr (m : NodeId) (c : Char9) (s : State) (h : (s.node m).rst = false) :
    exec (charInstr m (s.node m).filter c) s = .next (rxChar m c s) := by
  simp only [charInstr, rxChar, h]
  cases c.marker with
  | true => rfl
  | false => cases (s.node m).filter <;> rfl

/-! ## What a countdown call returns (42_countdown R162 to R164) -/

theorem ctProgress_ret (k : Progress) (s : State) :
    (ctProgress k s).ret = .fired (progressFires k s.disp) := by
  unfold ctProgress
  split <;> simp_all [setRet]

theorem ctSecond_ret (s : State) :
    (ctSecond s).ret = .finished ∨ ∃ bar per, (ctSecond s).ret = .advanced bar per := by
  unfold ctSecond
  split
  · exact .inl rfl
  · exact .inr ⟨_, _, rfl⟩

end Sys2Proof.Laws
end

