-- ==== Sys2Proof/Laws/Handlers.lean ====
section
/-! SUPPORT. What the handlers of the four roles leave alone, said once per shared operation and once per receive,
key and tick handler. -/

namespace Sys2Proof.Machine

theorem handlerFrame_refl (m : NodeId) (s : State) : handlerFrame m s s := by
  refine ⟨fun k _ => ⟨rfl, ?_⟩, rfl, rfl, rfl, rfl, rfl, rfl, rfl, rfl, rfl⟩
  cases k <;> simp [sameRole]

theorem handlerFrame_trans {m : NodeId} {s t u : State} (h1 : handlerFrame m s t) (h2 : handlerFrame m t u) :
    handlerFrame m s u := by
  obtain ⟨n1, c1, i1, f1, r1, fl1, tx1, rp1, rb1, cp1⟩ := h1
  obtain ⟨n2, c2, i2, f2, r2, fl2, tx2, rp2, rb2, cp2⟩ := h2
  refine ⟨fun k hk => ⟨(n2 k hk).1.trans (n1 k hk).1, ?_⟩, c2.trans c1, i2.trans i1, f2.trans f1, r2.trans r1,
    fl2.trans fl1, tx2.trans tx1, rp2.trans rp1, rb2.trans rb1, cp2.trans cp1⟩
  have a := (n1 k hk).2
  have b := (n2 k hk).2
  cases k <;> simp_all [sameRole]

/-- A change of node `m`'s state, queue or trace alone. -/
theorem handlerFrame_modNode {m : NodeId} {f : Node → Node} {s : State}
    (h : ∀ x, (f x).rst = x.rst ∧ (f x).filter = x.filter ∧ (f x).txEn = x.txEn ∧ (f x).rxPend = x.rxPend
      ∧ (f x).rxBuf = x.rxBuf) : handlerFrame m s (modNode m f s) := by
  obtain ⟨a, b, c, d, e⟩ := h (s.node m)
  refine ⟨fun k hk => ⟨modNode_node_ne hk f s, ?_⟩, by simp, by simp, by simp, by simpa using a, by simpa using b,
    by simpa using c, by simpa using d, by simpa using e, by simp⟩
  cases k <;> simp [sameRole]

theorem setSt_frame (m : NodeId) (v : SessionState) (s : State) : handlerFrame m s (setSt m v s) :=
  handlerFrame_modNode fun _ => ⟨rfl, rfl, rfl, rfl, rfl⟩

theorem emit_frame (m : NodeId) (e : OutEvent) (s : State) : handlerFrame m s (emit m e s) :=
  handlerFrame_modNode fun _ => ⟨rfl, rfl, rfl, rfl, rfl⟩

theorem send_frame (m : NodeId) (a p : Byte) (s : State) : handlerFrame m s (send m a p s) :=
  handlerFrame_modNode fun _ => ⟨rfl, rfl, rfl, rfl, rfl⟩

theorem modDisp_frame {f : DisplayRegs → DisplayRegs} (h : ∀ d, (f d).ctPend = d.ctPend) (s : State) :
    handlerFrame .dsp s (modDisp f s) := by
  refine ⟨fun k hk => ⟨by simp, ?_⟩, rfl, rfl, rfl, rfl, rfl, rfl, rfl, rfl, h _⟩
  cases k <;> simp_all [sameRole]

theorem modIndr_frame (f : IndicatorRegs → IndicatorRegs) (s : State) : handlerFrame .ind s (modIndr f s) := by
  refine ⟨fun k hk => ⟨by simp, ?_⟩, rfl, rfl, rfl, rfl, rfl, rfl, rfl, rfl, rfl⟩
  cases k <;> simp_all [sameRole]

theorem modActr_frame (f : ActuatorRegs → ActuatorRegs) (s : State) : handlerFrame .act s (modActr f s) := by
  refine ⟨fun k hk => ⟨by simp, ?_⟩, rfl, rfl, rfl, rfl, rfl, rfl, rfl, rfl, rfl⟩
  cases k <;> simp_all [sameRole]

theorem setRet_frame (m : NodeId) (r : CallResult) (s : State) : handlerFrame m s (setRet r s) := by
  refine ⟨fun k hk => ⟨by simp, ?_⟩, rfl, rfl, rfl, by simp, by simp, by simp, by simp, by simp, rfl⟩
  cases k <;> simp [sameRole]

/-! ## The countdown engine -/

theorem ctStart_frame (total : Byte) (s : State) : handlerFrame .dsp s (ctStart total s) :=
  modDisp_frame (by intro _; rfl) s

theorem ctStop_frame (s : State) : handlerFrame .dsp s (ctStop s) :=
  modDisp_frame (by intro _; rfl) s

theorem ctProgress_frame (k : Progress) (s : State) : handlerFrame .dsp s (ctProgress k s) := by
  unfold ctProgress
  split
  · exact handlerFrame_trans (modDisp_frame (by intro d; cases k <;> rfl) s) (setRet_frame _ _ _)
  · exact setRet_frame _ _ _

theorem ctSecond_frame (s : State) : handlerFrame .dsp s (ctSecond s) := by
  unfold ctSecond
  split
  · exact setRet_frame _ _ _
  · have h : ∀ d, (oneSecondLess d).ctPend = d.ctPend := by
      intro d; unfold oneSecondLess; split <;> rfl
    exact handlerFrame_trans (handlerFrame_trans (handlerFrame_trans (modDisp_frame h s)
      (ctProgress_frame _ _)) (ctProgress_frame _ _)) (setRet_frame _ _ _)

theorem ctTick_frame (s : State) : handlerFrame .dsp s (ctTick s) := by
  unfold ctTick
  split
  · simp only []
    split
    · exact handlerFrame_trans (modDisp_frame (by intro _; rfl) s) (ctSecond_frame _)
    · exact handlerFrame_trans (modDisp_frame (by intro _; rfl) s) (setRet_frame _ _ _)
  · exact setRet_frame _ _ _

/-! ## The display -/

theorem bcastStart_frame (c : Byte) (s : State) : handlerFrame .dsp s (bcastStart c s) :=
  handlerFrame_trans (send_frame _ _ _ _) (send_frame _ _ _ _)

theorem bcastEnded_frame (s : State) : handlerFrame .dsp s (bcastEnded s) :=
  handlerFrame_trans (handlerFrame_trans (send_frame _ _ _ _) (send_frame _ _ _ _))
    (handlerFrame_trans (send_frame _ _ _ _) (send_frame _ _ _ _))

theorem dspReinit_frame (s : State) : handlerFrame .dsp s (dspReinit s) :=
  handlerFrame_trans (modDisp_frame (by intro _; rfl) s) (setSt_frame _ _ _)

theorem dspTOk_frame (s : State) : handlerFrame .dsp s (dspTOk s) :=
  handlerFrame_trans (handlerFrame_trans (handlerFrame_trans (ctStart_frame _ s) (setSt_frame _ _ _))
    (emit_frame _ _ _)) (bcastStart_frame _ _)

theorem dspTDigit_frame (d : Digit) (s : State) : handlerFrame .dsp s (dspTDigit d s) := by
  unfold dspTDigit
  split
  · exact handlerFrame_trans (modDisp_frame (by intro _; rfl) s) (emit_frame _ _ _)
  · exact handlerFrame_refl _ _

/-- The display's receive handler (41_display R130). -/
theorem dspRx_frame (p : Byte) (s : State) : handlerFrame .dsp s (dspRx p s) := by
  unfold dspRx
  split
  · exact handlerFrame_trans (setSt_frame _ _ s) (emit_frame _ _ _)
  · exact handlerFrame_trans (handlerFrame_trans (modDisp_frame (by intro _; rfl) s) (setSt_frame _ _ _))
      (emit_frame _ _ _)
  · exact handlerFrame_trans (handlerFrame_trans (setSt_frame _ _ s) (emit_frame _ _ _)) (bcastStart_frame _ _)
  · exact handlerFrame_trans (handlerFrame_trans (modDisp_frame (by intro _; rfl) s) (setSt_frame _ _ _))
      (emit_frame _ _ _)
  · exact handlerFrame_trans (modDisp_frame (by intro _; rfl) s) (emit_frame _ _ _)
  · exact dspTOk_frame s
  · exact dspTDigit_frame _ s
  · exact handlerFrame_trans (handlerFrame_trans (ctStop_frame s) (dspReinit_frame _)) (emit_frame _ _ _)
  · exact handlerFrame_trans (modDisp_frame (by intro _; rfl) s) (emit_frame _ _ _)
  · exact handlerFrame_trans (dspReinit_frame s) (emit_frame _ _ _)
  · exact handlerFrame_refl _ _

theorem dspSec_frame (bar per : Bool) (s : State) : handlerFrame .dsp s (dspSec bar per s) := by
  have h := emit_frame .dsp (.fieldTime s.disp.remMin s.disp.remSec) s
  unfold dspSec
  cases bar <;> cases per
  · exact h
  · exact handlerFrame_trans h (send_frame _ _ _ _)
  · exact handlerFrame_trans h (emit_frame _ _ _)
  · exact handlerFrame_trans (handlerFrame_trans h (emit_frame _ _ _)) (send_frame _ _ _ _)

theorem dspFin_frame (s : State) : handlerFrame .dsp s (dspFin s) :=
  handlerFrame_trans (handlerFrame_trans (handlerFrame_trans (ctStop_frame s) (setSt_frame _ _ _))
    (emit_frame _ _ _)) (bcastEnded_frame _)

/-- The display's tick handler (41_display R143). -/
theorem dspTick_frame (s : State) : handlerFrame .dsp s (dspTick s) := by
  have h := ctTick_frame s
  unfold dspTick
  simp only []
  split
  · exact handlerFrame_trans h (dspFin_frame _)
  · exact handlerFrame_trans h (dspSec_frame _ _ _)
  · exact h
  · exact h

/-! ## The indicator and the actuator -/

theorem indStart_frame (v : SessionState) (s : State) : handlerFrame .ind s (indStart v s) :=
  handlerFrame_trans (handlerFrame_trans (setSt_frame _ _ s) (modIndr_frame _ _)) (emit_frame _ _ _)

theorem indAdvance_frame (s : State) : handlerFrame .ind s (indAdvance s) :=
  handlerFrame_trans (modIndr_frame _ s) (emit_frame _ _ _)

theorem clearFrame_frame (s : State) : handlerFrame .ind s (clearFrame s) := by
  unfold clearFrame
  split
  · exact handlerFrame_trans (modIndr_frame _ s) (emit_frame _ _ _)
  · exact handlerFrame_refl _ _

theorem indReset_frame (s : State) : handlerFrame .ind s (indReset s) :=
  handlerFrame_trans (handlerFrame_trans (handlerFrame_trans (setSt_frame _ _ s) (modIndr_frame _ _))
    (clearFrame_frame _)) (emit_frame _ _ _)

/-- The indicator's receive handler (45_indicator R210). -/
theorem indRx_frame (p : Byte) (s : State) : handlerFrame .ind s (indRx p s) := by
  unfold indRx
  split
  · exact indReset_frame s
  · exact indStart_frame _ s
  · exact indStart_frame _ s
  · exact handlerFrame_trans (setSt_frame _ _ s) (modIndr_frame _ _)
  · exact indAdvance_frame s
  · exact indAdvance_frame s
  · exact handlerFrame_refl _ _

theorem setActEn_frame (e : Bool) (s : State) : handlerFrame .act s (setActEn e s) := by
  unfold setActEn
  split
  · exact handlerFrame_refl _ _
  · exact handlerFrame_trans (modActr_frame _ s) (emit_frame _ _ _)

theorem setDone_frame (d : Bool) (s : State) : handlerFrame .act s (setDone d s) := by
  unfold setDone
  split
  · exact handlerFrame_refl _ _
  · exact handlerFrame_trans (modActr_frame _ s) (emit_frame _ _ _)

theorem dcStop_frame (s : State) : handlerFrame .act s (dcStop s) :=
  handlerFrame_trans (modActr_frame _ s) (setActEn_frame _ _)

theorem actSpeed_frame (d : Digit) (s : State) : handlerFrame .act s (actSpeed d s) := by
  unfold actSpeed
  split
  · exact handlerFrame_trans (handlerFrame_trans (modActr_frame _ s) (setSt_frame _ _ _)) (modActr_frame _ _)
  · exact modActr_frame _ s

/-- The actuator's receive handler (46_actuator R230). -/
theorem actRx_frame (p : Byte) (s : State) : handlerFrame .act s (actRx p s) := by
  unfold actRx
  split
  · exact handlerFrame_trans (handlerFrame_trans (handlerFrame_trans (dcStop_frame s) (setSt_frame _ _ _))
      (modActr_frame _ _)) (setDone_frame _ _)
  · exact handlerFrame_trans (handlerFrame_trans (dcStop_frame s) (setSt_frame _ _ _)) (setDone_frame _ _)
  · exact actSpeed_frame _ s
  · exact handlerFrame_refl _ _

theorem dcTick_frame (s : State) : handlerFrame .act s (dcTick s) := by
  unfold dcTick
  split
  · exact handlerFrame_trans (setActEn_frame _ s) (modActr_frame _ _)
  · exact handlerFrame_refl _ _

/-! ## Every receive handler -/

/-- `m.RX(p)` (40_framer R116). -/
theorem rx_frame (m : NodeId) (p : Byte) (s : State) : handlerFrame m s (rx m p s) := by
  cases m
  · exact handlerFrame_refl _ _
  · exact dspRx_frame p s
  · exact indRx_frame p s
  · exact actRx_frame p s

end Sys2Proof.Machine
end

