-- ==== Sys2Proof/Laws/Framer.lean ====
section
/-! SUPPORT. Reception, idle entry and the slot: each says once which node it touches and what it does to the
framer's registers (40_framer R112 to R118, 10_state R44). -/

namespace Sys2Proof.Machine

theorem localTo_refl (m : NodeId) (s : State) : localTo m s s :=
  ⟨(handlerFrame_refl m s).1, rfl, rfl⟩

theorem localTo_trans {m : NodeId} {s t u : State} (h1 : localTo m s t) (h2 : localTo m t u) : localTo m s u := by
  refine ⟨fun k hk => ⟨(h2.1 k hk).1.trans (h1.1 k hk).1, ?_⟩, h2.2.1.trans h1.2.1, h2.2.2.trans h1.2.2⟩
  have a := (h1.1 k hk).2
  have b := (h2.1 k hk).2
  cases k <;> simp_all [sameRole]

theorem handlerFrame_local {m : NodeId} {s t : State} (h : handlerFrame m s t) : localTo m s t :=
  ⟨h.1, h.2.1, h.2.2.1⟩

theorem modNode_local (m : NodeId) (f : Node → Node) (s : State) : localTo m s (modNode m f s) := by
  refine ⟨fun k hk => ⟨modNode_node_ne hk f s, ?_⟩, by simp, by simp⟩
  cases k <;> simp [sameRole]

theorem modDisp_local (f : DisplayRegs → DisplayRegs) (s : State) : localTo .dsp s (modDisp f s) := by
  refine ⟨fun k hk => ⟨by simp, ?_⟩, rfl, rfl⟩
  cases k <;> simp_all [sameRole]

theorem free_local (m : NodeId) (k : Nat) (s : State) : localTo m s { s with free := k } := by
  refine ⟨fun j _ => ⟨by cases j <;> rfl, ?_⟩, rfl, rfl⟩
  cases j <;> simp [sameRole]

theorem keepByte_local (m : NodeId) (b : Byte) (s : State) : localTo m s (keepByte m b s) := by
  unfold keepByte overrun
  split
  · split
    · exact localTo_refl _ _
    · exact modNode_local _ _ _
  · exact localTo_trans (modNode_local _ _ _) (modNode_local _ _ _)

theorem rx_local (m : NodeId) (p : Byte) (s : State) : localTo m s (rx m p s) :=
  handlerFrame_local (rx_frame m p s)

theorem rxdAcc_local (m : NodeId) (p : Byte) (s : State) : localTo m s (rxdAcc m p s) := by
  unfold rxdAcc acceptByte
  refine localTo_trans (t := setFilter m true s) (modNode_local m _ s) ?_
  split
  · exact rx_local _ _ _
  · exact keepByte_local _ _ _

/-- Reception of a character touches the receiver alone (40_framer R113). -/
theorem rxChar_local (m : NodeId) (c : Char9) (s : State) : localTo m s (rxChar m c s) := by
  unfold rxChar
  repeat' split
  · exact localTo_refl _ _
  · exact modNode_local _ _ _
  · exact modNode_local _ _ _
  · exact rxdAcc_local _ _ _

theorem rxh_local (n : NodeId) (s : State) : localTo n s (rxh n s) :=
  localTo_trans (modNode_local n _ s) (rx_local _ _ _)

theorem takeByte_local (n : NodeId) (s : State) : localTo n s (takeByte n s) := by
  unfold takeByte
  split
  · exact rxh_local _ _
  · exact localTo_refl _ _

theorem takeTick_local (s : State) : localTo .dsp s (takeTick s) := by
  unfold takeTick pendingTick
  split
  · exact localTo_trans (modDisp_local _ s) (handlerFrame_local (dspTick_frame _))
  · exact localTo_refl _ _

theorem handleBoth_local (b : Bool) (s : State) : localTo .dsp s (handleBoth b s) := by
  cases b
  · exact localTo_trans (takeTick_local s) (takeByte_local _ _)
  · exact localTo_trans (takeByte_local _ s) (takeTick_local _)

/-- Idle entry touches its own node alone (40_framer R118). -/
theorem idleEntry_local (n : NodeId) (s : State) : localTo n s (idleEntry n s) := by
  cases n
  · exact takeByte_local _ _
  · simp only [idleEntry]
    split
    · exact localTo_trans (free_local _ _ s) (handleBoth_local _ _)
    · exact localTo_trans (takeByte_local _ s) (takeTick_local _)
  · exact takeByte_local _ _
  · exact takeByte_local _ _

/-- The address rule at one receiver: after a character the filter is open exactly when the character was the
receiver's own address (40_framer R114 to R116, R125). -/
theorem rxChar_filter (m : NodeId) (c : Char9) (s : State) (hr : (s.node m).rst = false) :
    ((rxChar m c s).node m).filter = !(c.marker && decide (c.byte = s.cfg.addr m)) := by
  unfold rxChar
  simp only [hr, Bool.false_eq_true, ↓reduceIte]
  split
  · rename_i h; simp [rxa, setFilter, h]
  · rename_i h
    split
    · simp [rxdDrop, setFilter, h]
    · simp only [rxdAcc, acceptByte]
      have hk : ∀ t : State, ((keepByte m c.byte t).node m).filter = (t.node m).filter := by
        intro t; unfold keepByte overrun
        repeat' split
        all_goals simp [setRxBuf, setRxPend]
      have hx := (rx_frame m c.byte (setFilter m true s)).2.2.2.2.2.1
      split
      · rw [hx]; simp [setFilter, h]
      · rw [hk]; simp [setFilter, h]

/-- A character leaves the receiver's reset input and transmit-enable alone. -/
theorem rxChar_pins (m : NodeId) (c : Char9) (s : State) :
    ((rxChar m c s).node m).rst = (s.node m).rst ∧ ((rxChar m c s).node m).txEn = (s.node m).txEn := by
  have hk : ∀ t : State, ((keepByte m c.byte t).node m).rst = (t.node m).rst
      ∧ ((keepByte m c.byte t).node m).txEn = (t.node m).txEn := by
    intro t; unfold keepByte overrun
    repeat' split
    all_goals simp [setRxBuf, setRxPend]
  have hx := rx_frame m c.byte (setFilter m true s)
  unfold rxChar
  repeat' split
  · simp
  · simp [rxa, setFilter]
  · simp [rxdDrop, setFilter]
  · simp only [rxdAcc, acceptByte]
    split
    · refine ⟨hx.2.2.2.2.1.trans (by simp [setFilter]), hx.2.2.2.2.2.2.1.trans (by simp [setFilter])⟩
    · refine ⟨(hk _).1.trans (by simp [setFilter]), (hk _).2.trans (by simp [setFilter])⟩

end Sys2Proof.Machine
end

