-- ==== Sys2Proof/Laws/Locality.lean ====
section
/-! SUPPORT. What a handler reads: the registers of its own node and `CFG` (10_state R44). So receptions at
different nodes commute, and a slot leaves each receiver as its own reception does (40_framer R112, R113). -/

namespace Sys2Proof.Machine

/-- Node `m` is the same in both states, its role registers and `CFG` included. -/
abbrev agreesAt (m : NodeId) (s t : State) : Prop :=
  t.node m = s.node m ∧ sameRole m s t ∧ t.cfg = s.cfg

theorem agreesAt_refl (m : NodeId) (s : State) : agreesAt m s s :=
  ⟨rfl, by cases m <;> simp [sameRole], rfl⟩

theorem agreesAt_symm {m : NodeId} {s t : State} (h : agreesAt m s t) : agreesAt m t s := by
  refine ⟨h.1.symm, ?_, h.2.2.symm⟩
  have := h.2.1
  cases m <;> simp_all [sameRole]

theorem agreesAt_trans {m : NodeId} {s t u : State} (h1 : agreesAt m s t) (h2 : agreesAt m t u) : agreesAt m s u := by
  refine ⟨h2.1.trans h1.1, ?_, h2.2.2.trans h1.2.2⟩
  have a := h1.2.1
  have b := h2.2.1
  cases m <;> simp_all [sameRole]

/-- What runs at another node leaves node `m` as it was. -/
theorem agreesAt_of_local {m k : NodeId} {s t : State} (hk : m ≠ k) (h : localTo k s t) : agreesAt m s t :=
  ⟨(h.1 m hk).1, (h.1 m hk).2, h.2.1⟩

theorem modNode_agrees {m : NodeId} (f : Node → Node) {s t : State} (h : agreesAt m s t) :
    agreesAt m (modNode m f s) (modNode m f t) := by
  obtain ⟨hn, hr, hc⟩ := h
  refine ⟨by simp [hn], ?_, by simp [hc]⟩
  cases m <;> simp_all [sameRole]

theorem dspRx_agrees (p : Byte) {s t : State} (h : agreesAt .dsp s t) : agreesAt .dsp (dspRx p s) (dspRx p t) := by
  obtain ⟨hn, hr, hc⟩ := h
  simp only [node_dsp, sameRole] at hn hr
  have hsel : selectDsp t.cfg t.dsp.st p = selectDsp s.cfg s.dsp.st p := by rw [hc, hn]
  unfold dspRx
  rw [hsel]
  cases selectDsp s.cfg s.dsp.st p with
  | tDigit d =>
    have hfit : digitFits t.cfg t.disp.acc d = digitFits s.cfg s.disp.acc d := by rw [hc, hr]
    simp only [dspTDigit, hfit]
    cases digitFits s.cfg s.disp.acc d <;>
      simp [agreesAt, sameRole, hn, hr, hc, emit]
  | _ =>
    simp [agreesAt, sameRole, hn, hr, hc, emit, setSt, send, bcastStart, dspReinit, dspWake, dspSpeed, dspModeNt,
      dspModeT, dspTDel, dspTOk, dspRunReset, dspRunSpeed, dspEndReset, dspIgn, ctStart, ctStop, modDisp]

theorem indRx_agrees (p : Byte) {s t : State} (h : agreesAt .ind s t) : agreesAt .ind (indRx p s) (indRx p t) := by
  obtain ⟨hn, hr, hc⟩ := h
  simp only [node_ind, sameRole] at hn hr
  have hsel : selectInd t.cfg t.ind.st p = selectInd s.cfg s.ind.st p := by rw [hc, hn]
  unfold indRx
  rw [hsel]
  cases selectInd s.cfg s.ind.st p <;>
    simp [agreesAt, sameRole, hn, hr, hc, emit, setSt, indReset, Laws.clearFrame_eq, indStartNt, indStartWt, indStart,
      indProg, indProgAny, indAdvance, indEnded, indIgn, modIndr]

theorem actRx_agrees (p : Byte) {s t : State} (h : agreesAt .act s t) : agreesAt .act (actRx p s) (actRx p t) := by
  obtain ⟨hn, hr, hc⟩ := h
  simp only [node_act, sameRole] at hn hr
  have hsel : selectAct t.cfg t.act.st p = selectAct s.cfg s.act.st p := by rw [hc, hn]
  unfold actRx
  rw [hsel]
  cases selectAct s.cfg s.act.st p with
  | speed d =>
    simp only [actSpeed, hn]
    split <;> simp [agreesAt, sameRole, hn, hr, hc, setSt, dcStart, dcSpeed, modActr]
  | _ =>
    simp [agreesAt, sameRole, hn, hr, hc, setSt, actReset, actEnded, actIgn, dcStop, Laws.setActEn_eq,
      Laws.setDone_eq, modActr]

/-- A receive handler reads its own node alone. -/
theorem rx_agrees (m : NodeId) (p : Byte) {s t : State} (h : agreesAt m s t) : agreesAt m (rx m p s) (rx m p t) := by
  cases m with
  | inp => exact h
  | dsp => exact dspRx_agrees p h
  | ind => exact indRx_agrees p h
  | act => exact actRx_agrees p h

theorem keepByte_agrees (m : NodeId) (p : Byte) {s t : State} (h : agreesAt m s t) :
    agreesAt m (keepByte m p s) (keepByte m p t) := by
  unfold keepByte overrun
  rw [h.1, h.2.2]
  split
  · split
    · exact h
    · exact modNode_agrees _ h
  · exact modNode_agrees _ (modNode_agrees _ h)

/-- Reception reads its own node alone (40_framer R113). -/
theorem rxChar_agrees (m : NodeId) (c : Char9) {s t : State} (h : agreesAt m s t) :
    agreesAt m (rxChar m c s) (rxChar m c t) := by
  unfold rxChar
  rw [h.1]
  split
  · exact h
  · split
    · unfold rxa
      rw [h.2.2]
      exact modNode_agrees _ h
    · split
      · exact modNode_agrees _ h
      · have hf := modNode_agrees (fun x => { x with filter := true }) h
        unfold rxdAcc acceptByte State.idle
        rw [show ((setFilter m true t).node m) = (setFilter m true s).node m from hf.1]
        split
        · exact rx_agrees m c.byte hf
        · exact keepByte_agrees m c.byte hf

/-- What a slot delivers at one receiver is what the receiver's own reception does; the sender hears nothing
(40_framer R112, R113, R120). -/
theorem deliver_agrees (n m : NodeId) (c : Char9) (s : State) :
    agreesAt m (if m = n then s else rxChar m c s) (deliver n c s) := by
  have one : ∀ (k : NodeId) (t : State), k ≠ m → agreesAt m t (if k = n then t else rxChar k c t) := by
    intro k t hk
    split
    · exact agreesAt_refl m t
    · exact agreesAt_of_local (Ne.symm hk) (rxChar_local k c t)
  have own : ∀ (t : State), agreesAt m s t →
      agreesAt m (if m = n then s else rxChar m c s) (if m = n then t else rxChar m c t) := by
    intro t ht
    split
    · exact ht
    · exact rxChar_agrees m c ht
  simp only [deliver, allNodes, List.foldl_cons, List.foldl_nil]
  cases m with
  | inp =>
    exact agreesAt_trans (agreesAt_trans (agreesAt_trans (own _ (agreesAt_refl _ s))
      (one .dsp _ (by decide))) (one .ind _ (by decide))) (one .act _ (by decide))
  | dsp =>
    exact agreesAt_trans (agreesAt_trans (own _ (one .inp _ (by decide)))
      (one .ind _ (by decide))) (one .act _ (by decide))
  | ind =>
    exact agreesAt_trans (own _ (agreesAt_trans (one .inp _ (by decide)) (one .dsp _ (by decide))))
      (one .act _ (by decide))
  | act =>
    exact own _ (agreesAt_trans (agreesAt_trans (one .inp _ (by decide)) (one .dsp _ (by decide)))
      (one .ind _ (by decide)))

end Sys2Proof.Machine
end

