-- ==== Sys2Proof/Laws/Operands.lean ====
section
/-! SUPPORT. The small lemmas of the operand forms and of the conditions: digit codes and key codes read back,
the bytes of a character read back, and each test as the comparison its rule writes. -/

namespace Sys2Proof.Laws

open Sys2Proof.Machine

/-! ## Operand forms -/

theorem digitCode_toNat (d : Digit) : (digitCode d).toNat = 0x30 + d.val := by
  have := d.isLt
  simp only [digitCode, BitVec.toNat_ofNat]
  omega

theorem isDigitCode_iff (b : Byte) : isDigitCode b = true ↔ 0x30 ≤ b.toNat ∧ b.toNat ≤ 0x39 := by
  simp [isDigitCode]

@[simp] theorem isDigitCode_digitCode (d : Digit) : isDigitCode (digitCode d) = true := by
  have := d.isLt
  rw [isDigitCode_iff, digitCode_toNat]
  omega

@[simp] theorem digitOf_digitCode (d : Digit) : digitOf (digitCode d) = some d := by
  have := d.isLt
  unfold digitOf
  rw [dif_pos (by rw [digitCode_toNat]; omega)]
  simp [digitCode_toNat]

theorem digitCode_digitOf {b : Byte} {d : Digit} (h : digitOf b = some d) : digitCode d = b := by
  unfold digitOf at h
  split at h
  · next hb =>
    cases h
    apply BitVec.eq_of_toNat_eq
    rw [digitCode_toNat]
    simp only
    omega
  · cases h

theorem digitOf_eq_none_iff (b : Byte) : digitOf b = none ↔ isDigitCode b = false := by
  unfold digitOf isDigitCode
  split <;> simp_all

theorem digitCode_injective {d e : Digit} (h : digitCode d = digitCode e) : d = e := by
  have h' := congrArg digitOf h
  simpa using h'

@[simp] theorem keyOf_keycode (k : Key) : keyOf (keycode k) = some k := by
  cases k with
  | digit d => simp [keyOf, keycode]
  | star => decide
  | hash => decide

theorem keycode_keyOf {b : Byte} {k : Key} (h : keyOf b = some k) : keycode k = b := by
  unfold keyOf at h
  split at h
  · next d hd => cases h; exact digitCode_digitOf hd
  · split at h
    · next hb => cases h; exact hb.symm
    · split at h
      · next hb => cases h; exact hb.symm
      · cases h

theorem digitSpeed_toNat (d : Digit) : (digitSpeed d).toNat = d.val := by
  have := d.isLt
  simp only [digitSpeed, BitVec.toNat_ofNat]
  omega

/-! ## The bytes of a character -/

@[simp] theorem takeChar_charBytes (c : Char9) (rest : List Byte) :
    takeChar (charBytes c ++ rest) = .ok (c, rest) := by
  cases c with
  | mk marker byte => cases marker <;> simp [charBytes, takeChar, addrCh, dataCh]

theorem takeChar_ok {bs rest : List Byte} {c : Char9} (h : takeChar bs = .ok (c, rest)) :
    bs = charBytes c ++ rest := by
  unfold takeChar at h
  split at h
  · split at h
    · next h0 => cases h; simp [charBytes, dataCh, h0]
    · split at h
      · next h1 => cases h; simp [charBytes, addrCh, h1]
      · cases h
  · cases h

/-! ## Conditions -/

theorem digitFits_iff (cfg : Cfg) (acc : Byte) (d : Digit) :
    digitFits cfg acc d = true ↔ acc.toNat * 10 + d.val ≤ cfg.minMax :=
  decide_eq_true_iff

theorem crosses_iff (idx m total elapsed : Nat) :
    crosses idx m total elapsed = true ↔ idx < m ∧ (idx + 1) * total ≤ elapsed * m := by
  simp [crosses]

theorem dutyOn_iff (cnt : BitVec 7) (speed : BitVec 4) :
    dutyOn cnt speed = true ↔ cnt.toNat < speed.toNat * 10 + 10 :=
  decide_eq_true_iff

theorem dutyNext_toNat (cnt : BitVec 7) : (dutyNext cnt).toNat = (cnt.toNat + 1) % 100 := by
  simp only [dutyNext, BitVec.toNat_ofNat]
  omega

theorem timeIsUp_iff (d : DisplayRegs) : timeIsUp d = true ↔ d.remMin = 0 ∧ d.remSec = 0 := by
  simp [timeIsUp]

theorem elapsedSec_eq {total remMin : Byte} {remSec : BitVec 6}
    (h : remainingSec remMin remSec ≤ totalSec total) :
    elapsedSec total remMin remSec = totalSec total - remainingSec remMin remSec := by
  simp [elapsedSec, h]

theorem dropDigit_toNat (acc : Byte) : (dropDigit acc).toNat = acc.toNat / 10 := by
  have := acc.isLt
  simp only [dropDigit, BitVec.toNat_ofNat]
  omega

end Sys2Proof.Laws
end

