-- ==== Sys2Proof/Laws/PerInstr.lean ====
section
/-! SUPPORT. Per operation: its encoding has the length of its format, and an operation that no bits select is
admitted in no context (the columns "format" and "match" of the operation table, 30_encoding R80, R81, R88,
R92). -/

namespace Sys2Proof.Laws.Encoding

/-- How many bytes the bits of an operation take: 4 for MSG, 2 for CHAR9, 1 for KEY; none for the rows with no bits
of their own, EVENT, CALL and TXC, whose character is whatever the queue holds. -/
def formatBytes : Instr → Option Nat
  | .send _ _ _ => some 4
  | .txc _ => none
  | .rxa _ _ => some 2
  | .rxdDrop _ _ => some 2
  | .rxdAcc _ _ => some 2
  | .rxh _ => none
  | .dspWake _ => some 2
  | .dspSpeed _ => some 2
  | .dspModeNt _ => some 2
  | .dspModeT => some 2
  | .dspTDel => some 2
  | .dspTOk => some 2
  | .dspTDigit _ => some 2
  | .dspRunReset => some 2
  | .dspRunSpeed _ => some 2
  | .dspEndReset => some 2
  | .dspIgn _ => some 2
  | .dspTick => none
  | .dspSec _ _ => none
  | .dspBar => none
  | .dspPer => none
  | .dspFin => none
  | .ctStart _ => none
  | .ctStop => none
  | .ctTick => none
  | .ctSecond => none
  | .ctProgress _ => none
  | .dcStart => none
  | .dcStop => none
  | .dcSpeed _ => none
  | .dcTick => none
  | .inpWake _ => some 1
  | .inpSpeed _ => some 1
  | .inpModeNt _ => some 1
  | .inpModeT => some 1
  | .inpTDel => some 1
  | .inpTOk => some 1
  | .inpTDigit _ => some 1
  | .inpRunDigit _ => some 1
  | .inpRunReset => some 1
  | .inpIgn _ => some 1
  | .inpRx _ => some 2
  | .indReset => some 2
  | .indStartNt => some 2
  | .indStartWt => some 2
  | .indProg => some 2
  | .indProgAny _ => some 2
  | .indEnded => some 2
  | .indIgn _ => some 2
  | .indBlink => none
  | .indFrame => none
  | .actReset => some 2
  | .actEnded => some 2
  | .actSpeed _ => some 2
  | .actIgn _ => some 2
  | .actTick => none

/-- The encoding has the format's length, and an operation with no bits has no context that selects it by
bits. -/
def Statement (i : Instr) : Prop :=
  ∀ cfg : Cfg, (encode cfg i).map List.length = formatBytes i
    ∧ (formatBytes i = none → ∀ cx, admits cfg cx i = false)

/-- An operation with bits: the length is the format's. -/
theorem of_length {i : Instr} {k : Nat} (hf : formatBytes i = some k)
    (h : ∀ cfg, (encode cfg i).map List.length = some k) : Statement i :=
  fun cfg => ⟨by rw [hf]; exact h cfg, fun hn => by rw [hf] at hn; cases hn⟩

/-- An operation with no bits: nothing is encoded and no context admits it. -/
theorem of_none {i : Instr} (hf : formatBytes i = none) (he : ∀ cfg, encode cfg i = none)
    (ha : ∀ cfg cx, admits cfg cx i = false) : Statement i :=
  fun cfg => ⟨by rw [hf, he cfg]; rfl, fun _ => ha cfg⟩

theorem send (n : NodeId) (a : Byte) (p : Byte) : Statement (.send n a p) :=
  of_length rfl (fun _ => rfl)

theorem txc (n : NodeId) : Statement (.txc n) :=
  of_none rfl (fun _ => rfl) (fun _ _ => rfl)

theorem rxa (m : NodeId) (b : Byte) : Statement (.rxa m b) :=
  of_length rfl (fun _ => rfl)

theorem rxdDrop (m : NodeId) (b : Byte) : Statement (.rxdDrop m b) :=
  of_length rfl (fun _ => rfl)

theorem rxdAcc (m : NodeId) (p : Byte) : Statement (.rxdAcc m p) :=
  of_length rfl (fun _ => rfl)

theorem rxh (n : NodeId) : Statement (.rxh n) :=
  of_none rfl (fun _ => rfl) (fun _ _ => rfl)

theorem dspWake (p : Byte) : Statement (.dspWake p) :=
  of_length rfl (fun _ => rfl)

theorem dspSpeed (d : Digit) : Statement (.dspSpeed d) :=
  of_length rfl (fun _ => rfl)

theorem dspModeNt (d : Digit) : Statement (.dspModeNt d) :=
  of_length rfl (fun _ => rfl)

theorem dspModeT : Statement .dspModeT :=
  of_length rfl (fun _ => rfl)

theorem dspTDel : Statement .dspTDel :=
  of_length rfl (fun _ => rfl)

theorem dspTOk : Statement .dspTOk :=
  of_length rfl (fun _ => rfl)

theorem dspTDigit (d : Digit) : Statement (.dspTDigit d) :=
  of_length rfl (fun _ => rfl)

theorem dspRunReset : Statement .dspRunReset :=
  of_length rfl (fun _ => rfl)

theorem dspRunSpeed (d : Digit) : Statement (.dspRunSpeed d) :=
  of_length rfl (fun _ => rfl)

theorem dspEndReset : Statement .dspEndReset :=
  of_length rfl (fun _ => rfl)

theorem dspIgn (p : Byte) : Statement (.dspIgn p) :=
  of_length rfl (fun _ => rfl)

theorem dspTick : Statement .dspTick :=
  of_none rfl (fun _ => rfl) (fun _ _ => rfl)

theorem dspSec (bar : Bool) (per : Bool) : Statement (.dspSec bar per) :=
  of_none rfl (fun _ => rfl) (fun _ _ => rfl)

theorem dspBar : Statement .dspBar :=
  of_none rfl (fun _ => rfl) (fun _ _ => rfl)

theorem dspPer : Statement .dspPer :=
  of_none rfl (fun _ => rfl) (fun _ _ => rfl)

theorem dspFin : Statement .dspFin :=
  of_none rfl (fun _ => rfl) (fun _ _ => rfl)

theorem ctStart (total : Byte) : Statement (.ctStart total) :=
  of_none rfl (fun _ => rfl) (fun _ _ => rfl)

theorem ctStop : Statement .ctStop :=
  of_none rfl (fun _ => rfl) (fun _ _ => rfl)

theorem ctTick : Statement .ctTick :=
  of_none rfl (fun _ => rfl) (fun _ _ => rfl)

theorem ctSecond : Statement .ctSecond :=
  of_none rfl (fun _ => rfl) (fun _ _ => rfl)

theorem ctProgress (k : Progress) : Statement (.ctProgress k) :=
  of_none rfl (fun _ => rfl) (fun _ _ => rfl)

theorem dcStart : Statement .dcStart :=
  of_none rfl (fun _ => rfl) (fun _ _ => rfl)

theorem dcStop : Statement .dcStop :=
  of_none rfl (fun _ => rfl) (fun _ _ => rfl)

theorem dcSpeed (d : Digit) : Statement (.dcSpeed d) :=
  of_none rfl (fun _ => rfl) (fun _ _ => rfl)

theorem dcTick : Statement .dcTick :=
  of_none rfl (fun _ => rfl) (fun _ _ => rfl)

theorem inpWake (k : Key) : Statement (.inpWake k) :=
  of_length rfl (fun _ => rfl)

theorem inpSpeed (d : Digit) : Statement (.inpSpeed d) :=
  of_length rfl (fun _ => rfl)

theorem inpModeNt (d : Digit) : Statement (.inpModeNt d) :=
  of_length rfl (fun _ => rfl)

theorem inpModeT : Statement .inpModeT :=
  of_length rfl (fun _ => rfl)

theorem inpTDel : Statement .inpTDel :=
  of_length rfl (fun _ => rfl)

theorem inpTOk : Statement .inpTOk :=
  of_length rfl (fun _ => rfl)

theorem inpTDigit (d : Digit) : Statement (.inpTDigit d) :=
  of_length rfl (fun _ => rfl)

theorem inpRunDigit (d : Digit) : Statement (.inpRunDigit d) :=
  of_length rfl (fun _ => rfl)

theorem inpRunReset : Statement .inpRunReset :=
  of_length rfl (fun _ => rfl)

theorem inpIgn (k : Key) : Statement (.inpIgn k) :=
  of_length rfl (fun _ => rfl)

theorem inpRx (p : Byte) : Statement (.inpRx p) :=
  of_length rfl (fun _ => rfl)

theorem indReset : Statement .indReset :=
  of_length rfl (fun _ => rfl)

theorem indStartNt : Statement .indStartNt :=
  of_length rfl (fun _ => rfl)

theorem indStartWt : Statement .indStartWt :=
  of_length rfl (fun _ => rfl)

theorem indProg : Statement .indProg :=
  of_length rfl (fun _ => rfl)

theorem indProgAny (p : Byte) : Statement (.indProgAny p) :=
  of_length rfl (fun _ => rfl)

theorem indEnded : Statement .indEnded :=
  of_length rfl (fun _ => rfl)

theorem indIgn (p : Byte) : Statement (.indIgn p) :=
  of_length rfl (fun _ => rfl)

theorem indBlink : Statement .indBlink :=
  of_none rfl (fun _ => rfl) (fun _ _ => rfl)

theorem indFrame : Statement .indFrame :=
  of_none rfl (fun _ => rfl) (fun _ _ => rfl)

theorem actReset : Statement .actReset :=
  of_length rfl (fun _ => rfl)

theorem actEnded : Statement .actEnded :=
  of_length rfl (fun _ => rfl)

theorem actSpeed (d : Digit) : Statement (.actSpeed d) :=
  of_length rfl (fun _ => rfl)

theorem actIgn (p : Byte) : Statement (.actIgn p) :=
  of_length rfl (fun _ => rfl)

theorem actTick : Statement .actTick :=
  of_none rfl (fun _ => rfl) (fun _ _ => rfl)

end Sys2Proof.Laws.Encoding
end

