-- ==== Sys2Proof/Laws/Ranges.lean ====
section
/-! SUPPORT. The ranges of the registers: what each computation of Flags and Operands can give, and that every
handler keeps the invariant of its own role's registers. -/

namespace Sys2Proof.Machine

theorem wf_minMax {c : Cfg} (h : c.wf = true) : 1 ≤ c.minMax ∧ c.minMax ≤ 255 := by
  simp [Cfg.wf] at h
  exact h.1

@[simp] theorem digitSpeed_toNat (d : Digit) : (digitSpeed d).toNat = d.val := by
  simp [digitSpeed]; omega

@[simp] theorem dropDigit_toNat (b : Byte) : (dropDigit b).toNat = b.toNat / 10 := by
  simp [dropDigit]; omega

@[simp] theorem dutyNext_toNat (c : BitVec 7) : (dutyNext c).toNat = (c.toNat + 1) % 100 := by
  simp [dutyNext]; omega

theorem advanceProg_toNat (k : BitVec 3) :
    (advanceProg k).toNat = if k.toNat < 6 then k.toNat + 1 else k.toNat := by
  unfold advanceProg; split <;> simp; omega

theorem appendDigit_toNat {c : Cfg} (h : c.wf = true) {acc : Byte} {d : Digit} (hf : digitFits c acc d = true) :
    (BitVec.ofNat 8 (appendDigit acc d)).toNat = appendDigit acc d ∧ appendDigit acc d ≤ c.minMax := by
  have hm := wf_minMax h
  simp [digitFits] at hf
  refine ⟨?_, hf⟩
  simp; omega

/-! ## The display -/

theorem oneSecondLess_time {d : DisplayRegs} (h : timeIsUp d = false) (hs : d.remSec.toNat ≤ 59) :
    (oneSecondLess d).remMin.toNat * 60 + (oneSecondLess d).remSec.toNat + 1
      = d.remMin.toNat * 60 + d.remSec.toNat
    ∧ (oneSecondLess d).remSec.toNat ≤ 59 ∧ (oneSecondLess d).remMin.toNat ≤ d.remMin.toNat := by
  unfold oneSecondLess
  split
  · rename_i h0
    have : d.remMin ≠ 0 := by
      intro hm; simp [timeIsUp, hm, h0] at h
    have : d.remMin.toNat ≠ 0 := fun hm => this (BitVec.eq_of_toNat_eq (by simpa using hm))
    simp [h0]; omega
  · rename_i h0
    have : d.remSec.toNat ≠ 0 := fun hm => h0 (BitVec.eq_of_toNat_eq (by simpa using hm))
    simp; omega

/-- The decrement writes the two remaining-time counters alone (42_countdown R163). -/
theorem oneSecondLess_frame (d : DisplayRegs) :
    (oneSecondLess d).speed = d.speed ∧ (oneSecondLess d).acc = d.acc ∧ (oneSecondLess d).totalMin = d.totalMin
    ∧ (oneSecondLess d).barIdx = d.barIdx ∧ (oneSecondLess d).perIdx = d.perIdx
    ∧ (oneSecondLess d).parity = d.parity ∧ (oneSecondLess d).ctRun = d.ctRun
    ∧ (oneSecondLess d).ctPend = d.ctPend := by
  unfold oneSecondLess; split <;> simp

/-- CT.PROGRESS (42_countdown R164): everything it can do. -/
theorem ctProgress_cases (k : Progress) (s : State) :
    (progressFires k s.disp = true ∧ ctProgress k s = setRet (.fired true) (modDisp (bumpProgress k) s)) ∨
    (progressFires k s.disp = false ∧ ctProgress k s = setRet (.fired false) s) := by
  unfold ctProgress; split <;> simp_all

theorem bumpProgress_ranges {k : Progress} {d : DisplayRegs} {n : Nat} (h : progressFires k d = true)
    (hr : DisplayRanges n d) :
    DisplayRanges n (bumpProgress k d) ∧ (bumpProgress k d).ctRun = d.ctRun := by
  obtain ⟨a1, a2, a3, a4, a5, a6, a7, a8⟩ := hr
  have h0 : progressIdx k d < progressMax k := (of_decide_eq_true h).1
  cases k <;> simp only [progressIdx, progressMax] at h0
  · exact ⟨⟨a1, a2, a3, a4, a5, a6, by simp [bumpProgress]; omega, a8⟩, rfl⟩
  · exact ⟨⟨a1, a2, a3, a4, a5, a6, a7, by simp [bumpProgress]; omega⟩, rfl⟩

theorem ctProgress_ranges {k : Progress} {s : State} {n : Nat} (h : DisplayRanges n s.disp) :
    DisplayRanges n (ctProgress k s).disp ∧ (ctProgress k s).disp.ctRun = s.disp.ctRun
    ∧ (ctProgress k s).dsp = s.dsp := by
  obtain ⟨hf, he⟩ | ⟨-, he⟩ := ctProgress_cases k s
  · have := bumpProgress_ranges hf h
    rw [he]; exact ⟨this.1, this.2, rfl⟩
  · rw [he]; exact ⟨h, rfl, rfl⟩

theorem ctSecond_ranges {s : State} {n : Nat} (h : DisplayRanges n s.disp) :
    DisplayRanges n (ctSecond s).disp ∧ (ctSecond s).disp.ctRun = s.disp.ctRun ∧ (ctSecond s).dsp = s.dsp := by
  unfold ctSecond
  split
  · exact ⟨h, rfl, rfl⟩
  · rename_i hz
    have ht := oneSecondLess_time (by simpa using hz) h.2.2.2.1
    have e := oneSecondLess_frame s.disp
    have h1 : DisplayRanges n (modDisp oneSecondLess s).disp := by
      obtain ⟨a1, a2, a3, a4, a5, a6, a7, a8⟩ := h
      simp only [modDisp_disp, DisplayRanges, e]
      omega
    have h2 := ctProgress_ranges (k := .bar) h1
    have h3 := ctProgress_ranges (k := .per) h2.1
    exact ⟨h3.1, h3.2.1.trans (h2.2.1.trans e.2.2.2.2.2.2.1), h3.2.2.trans h2.2.2⟩

/-- CT.TICK keeps the ranges, the run flag and the display's node record (42_countdown R162). -/
theorem ctTick_ranges {s : State} {n : Nat} (h : DisplayRanges n s.disp) :
    DisplayRanges n (ctTick s).disp ∧ (ctTick s).disp.ctRun = s.disp.ctRun ∧ (ctTick s).dsp = s.dsp := by
  unfold ctTick
  split
  · simp only []
    split
    · exact ctSecond_ranges (s := modDisp (fun d => { d with parity := !d.parity }) s) h
    · exact ⟨h, rfl, rfl⟩
  · exact ⟨h, rfl, rfl⟩

/-- CT.TICK of a stopped engine returns NONE (42_countdown R162). -/
theorem ctTick_stopped {s : State} (h : s.disp.ctRun = false) : ctTick s = setRet .none s := by
  simp [ctTick, h]

/-- A send or an output leaves the display's session state and registers alone. -/
theorem displayInv_send (a p : Byte) (s : State) : DisplayInv (send .dsp a p s) ↔ DisplayInv s := Iff.rfl

theorem displayInv_emit (e : OutEvent) (s : State) : DisplayInv (emit .dsp e s) ↔ DisplayInv s := Iff.rfl

theorem displayInv_bcastStart (c : Byte) (s : State) : DisplayInv (bcastStart c s) ↔ DisplayInv s := Iff.rfl

/-- The display's tick handler keeps the display's invariant (41_display R143, R151). -/
theorem dspTick_displayInv {s : State} (h : DisplayInv s) : DisplayInv (dspTick s) := by
  obtain ⟨hc, hrun, hn⟩ := ctTick_ranges h.1
  have hcfg := (ctTick_frame s).2.1
  have ht : DisplayInv (ctTick s) := ⟨by rw [hcfg]; exact hc, by rw [hrun, hn]; exact h.2⟩
  unfold dspTick
  simp only []
  split
  · refine ⟨ht.1, ?_⟩
    show false = true ↔ SessionState.timerEnded = SessionState.timerRunning
    decide
  · rename_i bar per _
    cases bar <;> cases per <;> exact ht
  · exact ht
  · exact ht

/-- The session states in which a row of the display's table stands (30_encoding R84). -/
def dspRowState (op : DspRxOp) (st : SessionState) : Prop :=
  match op with
  | .wake _ => st = .standby
  | .speed _ => st = .selectSpeed
  | .modeNt _ => st = .selectMode
  | .modeT => st = .selectMode
  | .tDel => st = .enterTimer
  | .tOk => st = .enterTimer
  | .tDigit _ => st = .enterTimer
  | .runReset => st = .noTimer ∨ st = .timerRunning
  | .runSpeed _ => st = .noTimer ∨ st = .timerRunning
  | .endReset => st = .timerEnded
  | .ign _ => st ≠ .standby

theorem selectDsp_state (cfg : Cfg) (st : SessionState) (p : Byte) : dspRowState (selectDsp cfg st p) st := by
  cases st <;> simp only [selectDsp] <;> (repeat' split) <;> simp [dspRowState]

/-- The display's receive handler keeps the display's invariant (41_display R130, R151). -/
theorem dspRx_displayInv {s : State} (p : Byte) (hw : s.cfg.wf = true) (h : DisplayInv s) :
    DisplayInv (dspRx p s) := by
  have hm := wf_minMax hw
  have hs := selectDsp_state s.cfg s.dsp.st p
  obtain ⟨⟨a1, a2, a3, a4, a5, a6, a7, a8⟩, hr⟩ := h
  unfold dspRx
  generalize selectDsp s.cfg s.dsp.st p = op at hs ⊢
  cases op <;> simp only [dspRowState] at hs ⊢
  case wake => exact ⟨⟨a1, a2, a3, a4, a5, a6, a7, a8⟩, by simp_all [dspWake, emit, setSt]⟩
  case speed d =>
    exact ⟨⟨by simp [dspSpeed, emit, setSt]; omega, a2, a3, a4, a5, a6, a7, a8⟩,
      by simp_all [dspSpeed, emit, setSt]⟩
  case modeNt => exact ⟨⟨a1, a2, a3, a4, a5, a6, a7, a8⟩, by simp_all [dspModeNt, bcastStart, send, emit, setSt]⟩
  case modeT => exact ⟨⟨a1, Nat.zero_le _, a3, a4, a5, a6, a7, a8⟩, by simp_all [dspModeT, emit, setSt]⟩
  case tDel =>
    exact ⟨⟨a1, by simp [dspTDel, emit]; omega, a3, a4, a5, a6, a7, a8⟩, by simp_all [dspTDel, emit]⟩
  case tOk =>
    refine ⟨⟨a1, a2, a2, by simp [dspTOk, bcastStart, send, emit, setSt, ctStart], le_refl _, ?_, ?_, ?_⟩, ?_⟩ <;>
      simp [dspTOk, bcastStart, send, emit, setSt, ctStart]
  case tDigit d =>
    unfold dspTDigit
    split
    · rename_i hf
      have := appendDigit_toNat hw hf
      exact ⟨⟨a1, by simp [emit] at this ⊢; omega, a3, a4, a5, a6, a7, a8⟩, hr⟩
    · exact ⟨⟨a1, a2, a3, a4, a5, a6, a7, a8⟩, hr⟩
  case runReset =>
    refine ⟨?_, ?_⟩ <;> simp [dspRunReset, dspReinit, ctStop, emit, setSt, DisplayRanges, DisplayRegs.reset]
  case runSpeed d =>
    exact ⟨⟨by simp [dspRunSpeed, emit]; omega, a2, a3, a4, a5, a6, a7, a8⟩, hr⟩
  case endReset =>
    refine ⟨?_, ?_⟩ <;> simp [dspEndReset, dspReinit, emit, setSt, DisplayRanges, DisplayRegs.reset]
  case ign => exact ⟨⟨a1, a2, a3, a4, a5, a6, a7, a8⟩, hr⟩

/-! ## The indicator -/

/-- The session states in which a row of the indicator's table stands (30_encoding R85). -/
def indRowState (op : IndRxOp) (st : SessionState) : Prop :=
  match op with
  | .ended => st = .timerRunning
  | .prog => st = .timerRunning
  | .progAny _ => st = .timerRunning
  | .ign _ => st ≠ .timerRunning
  | .reset => True
  | .startNt => True
  | .startWt => True

theorem selectInd_state (cfg : Cfg) (st : SessionState) (p : Byte) : indRowState (selectInd cfg st p) st := by
  simp only [selectInd]
  repeat' split
  all_goals first | assumption | trivial

/-- The indicator's receive handler keeps the indicator's invariant (45_indicator R210, R220). -/
theorem indRx_indicatorInv {s : State} (p : Byte) (h : IndicatorInv s) : IndicatorInv (indRx p s) := by
  have hs := selectInd_state s.cfg s.ind.st p
  have hp := advanceProg_toNat s.indr.progIdx
  obtain ⟨a1, a2, a3, a4, a5, a6⟩ := h
  unfold indRx
  generalize selectInd s.cfg s.ind.st p = op at hs ⊢
  cases op <;> simp only [indRowState] at hs ⊢
  case reset =>
    simp only [indReset, clearFrame]
    split <;> simp [IndicatorInv, emit, setSt]
  case startNt => simp [IndicatorInv, indStartNt, indStart, emit, setSt]
  case startWt => simp [IndicatorInv, indStartWt, indStart, emit, setSt]
  case ended => simp [IndicatorInv, indEnded, setSt]; exact a4
  case prog =>
    refine ⟨a1, a2, a3, ?_, a5, a6⟩
    simp [indProg, indAdvance, emit]; split at hp <;> omega
  case progAny =>
    refine ⟨a1, a2, a3, ?_, a5, a6⟩
    simp [indProgAny, indAdvance, emit]; split at hp <;> omega
  case ign => exact ⟨a1, a2, a3, a4, a5, a6⟩

/-- The two local timers keep the indicator's invariant (45_indicator R218 to R220). -/
theorem indBlink_indicatorInv {s : State} (h : IndicatorInv s) : IndicatorInv (indBlink s) := by
  unfold indBlink; split <;> exact h

theorem indFrame_indicatorInv {s : State} (h : IndicatorInv s) : IndicatorInv (indFrame s) := by
  unfold indFrame; split <;> exact h

/-! ## The actuator -/

theorem selectAct_state (cfg : Cfg) (st : SessionState) (p : Byte) :
    selectAct cfg st p = .ended → st = .noTimer := by
  unfold selectAct
  repeat' split
  all_goals simp_all

/-- DC.STOP (43_dutycycle R181): everything it does to the registers and the session state. -/
theorem dcStop_regs (s : State) :
    (dcStop s).actr = { s.actr with dcRun := false, actEn := false } ∧ (dcStop s).act.st = s.act.st := by
  unfold dcStop setActEn
  split <;> simp_all [emit]

theorem setDone_regs (d : Bool) (s : State) :
    (setDone d s).actr = { s.actr with done := d } ∧ (setDone d s).act.st = s.act.st := by
  unfold setDone
  split <;> simp_all [emit]

/-- The actuator's receive handler keeps the actuator's invariant (46_actuator R230, R236). -/
theorem actRx_actuatorInv {s : State} (p : Byte) (h : ActuatorInv s) : ActuatorInv (actRx p s) := by
  have hs := selectAct_state s.cfg s.act.st p
  have hd := dcStop_regs s
  obtain ⟨a1, a2, a3, a4, a5, a6⟩ := h
  unfold actRx
  generalize selectAct s.cfg s.act.st p = op at hs ⊢
  cases op <;> simp only [] at hs ⊢
  case reset =>
    simp only [actReset]
    simp [ActuatorInv, setDone_regs, setSt, hd]
  case ended =>
    simp only [actEnded]
    simp [ActuatorInv, setDone_regs, setSt, hd, a2, a3]
  case speed d =>
    have := d.isLt
    unfold actSpeed
    split
    · simp_all [ActuatorInv, dcStart, dcSpeed, setSt]; omega
    · simp_all [ActuatorInv, dcSpeed]; omega
  case ign => exact ⟨a1, a2, a3, a4, a5, a6⟩

/-- The duty tick keeps the actuator's invariant (43_dutycycle R183, 46_actuator R236). -/
theorem dcTick_actuatorInv {s : State} (h : ActuatorInv s) : ActuatorInv (dcTick s) := by
  obtain ⟨a1, a2, a3, a4, a5, a6⟩ := h
  unfold dcTick
  split
  · rename_i hr
    have : (s.actr.dcCnt.toNat + 1) % 100 ≤ 99 := by omega
    unfold setActEn
    split <;> simp_all [ActuatorInv, emit]
  · exact ⟨a1, a2, a3, a4, a5, a6⟩

end Sys2Proof.Machine
end

