-- ==== Sys2Proof/Tests/Slice0.lean ====
section
/-! SUPPORT. Tests. Expected results come from the spec's vectors (95_test_vectors, cited as V-..) or are worked by
hand from the rules cited; the witnesses show states that meet the statements' hypotheses. -/

namespace Sys2Proof.Tests

open Sys2Proof.Machine

/-! ## Small states -/

/-- The default `CFG` with its open fields fixed. -/
def cfgWith (r : RxOverrun) : Cfg :=
  { Cfg.default with rxOverrun := r, tDcTick := 1, tBlink := 1, tFrame := 1, tKeyPoll := 1 }

/-- The reset state under `keep_old`. -/
def s0 : State := { State.reset with cfg := cfgWith .keepOld }

/-- The display in a session state. -/
def dspIn (st : SessionState) : State := { s0 with dsp := { s0.dsp with st := st, out := [] } }

/-- The display in a session state with some of its registers. -/
def dspWith (st : SessionState) (f : DisplayRegs → DisplayRegs) : State := modDisp f (dspIn st)

/-- The input node in a session state. -/
def inpIn (st : SessionState) : State := { s0 with inp := { s0.inp with st := st } }

/-- The indicator in a session state with some of its registers. -/
def indWith (st : SessionState) (f : IndicatorRegs → IndicatorRegs) : State :=
  modIndr f { s0 with ind := { s0.ind with st := st } }

/-- The actuator in a session state with some of its registers. -/
def actWith (st : SessionState) (f : ActuatorRegs → ActuatorRegs) : State :=
  modActr f { s0 with act := { s0.act with st := st } }

/-- The outcome is a next state that passes `f`. -/
def ok (o : Host.Outcome State Fault Refusal) (f : State → Bool) : Bool :=
  match o with
  | .next t => f t
  | .fault _ => false
  | .refused _ => false

/-- The outcome of handling payload `p` at node `m`. -/
def handle (m : NodeId) (p : Byte) (s : State) : Host.Outcome State Fault Refusal :=
  exec (payloadInstr s.cfg m (s.node m).st p) s

/-- The outcome of key `k`. -/
def press (k : Key) (s : State) : Host.Outcome State Fault Refusal :=
  exec (keyInstr s.cfg s.inp.st k) s

/-- What the decoder reads, `none` where it refuses. -/
def read (cx : Context) (bs : List Byte) : Option Instr :=
  match decode (cfgWith .keepOld) cx bs with
  | .ok (i, []) => some i
  | .ok (_, _ :: _) => none
  | .error _ => none

/-- Why the decoder refuses. -/
def refusal (cx : Context) (bs : List Byte) : Option DecodeError :=
  match decode (cfgWith .keepOld) cx bs with
  | .ok _ => none
  | .error e => some e

/-! ## Ill-formed terms are refused, one per check -/

theorem test_wf_refuses_other_senders :
    (Instr.send .ind 2 0).wf s0.cfg = false ∧ (Instr.send .act 2 0).wf s0.cfg = false
    ∧ (Instr.send .inp 2 0).wf s0.cfg = true := by decide

theorem test_wf_refuses_digit_zero :
    (Instr.dspModeNt 0).wf s0.cfg = false ∧ (Instr.inpModeNt 0).wf s0.cfg = false
    ∧ (Instr.dspModeNt 1).wf s0.cfg = true ∧ (Instr.inpModeNt 9).wf s0.cfg = true := by decide

theorem test_wf_refuses_total_above_range :
    (Instr.ctStart 11).wf { s0.cfg with minMax := 10 } = false
    ∧ (Instr.ctStart 10).wf { s0.cfg with minMax := 10 } = true := by decide

theorem test_wf_refuses_control_codes_as_other_payloads :
    (Instr.indProgAny 0xF4).wf s0.cfg = false ∧ (Instr.indIgn 0xF0).wf s0.cfg = false
    ∧ (Instr.actIgn 0xF0).wf s0.cfg = false ∧ (Instr.actIgn 0x39).wf s0.cfg = false
    ∧ (Instr.indProgAny 0x35).wf s0.cfg = true ∧ (Instr.indIgn 0xF4).wf s0.cfg = true
    ∧ (Instr.actIgn 0xF4).wf s0.cfg = true := by decide

/-- One malformed `CFG` per constraint of 00_scope R8; the default is well formed. -/
theorem test_cfg_wf_checks :
    s0.cfg.wf = true
    ∧ ({ s0.cfg with addrAct := 0x01 } : Cfg).wf = false
    ∧ ({ s0.cfg with dReset := 0x30 } : Cfg).wf = false
    ∧ ({ s0.cfg with dDelete := 0x39 } : Cfg).wf = false
    ∧ ({ s0.cfg with dDelete := 0x23 } : Cfg).wf = false
    ∧ ({ s0.cfg with dConfirm := 0x35 } : Cfg).wf = false
    ∧ ({ s0.cfg with iEnded := 0xF1 } : Cfg).wf = false
    ∧ ({ s0.cfg with aReset := 0x31 } : Cfg).wf = false
    ∧ ({ s0.cfg with aReset := 0xF4 } : Cfg).wf = false
    ∧ ({ s0.cfg with aEnded := 0x38 } : Cfg).wf = false
    ∧ ({ s0.cfg with keyReset := .digit 1 } : Cfg).wf = false
    ∧ ({ s0.cfg with minMax := 0 } : Cfg).wf = false
    ∧ ({ s0.cfg with minMax := 256 } : Cfg).wf = false
    ∧ ({ s0.cfg with tCtTick := 1 } : Cfg).wf = false ∧ ({ s0.cfg with tDcTick := 0 } : Cfg).wf = false
    ∧ ({ s0.cfg with tBlink := 0 } : Cfg).wf = false ∧ ({ s0.cfg with tFrame := 0 } : Cfg).wf = false
    ∧ ({ s0.cfg with tKeyPoll := 0 } : Cfg).wf = false := by decide

/-- The default is well formed whatever the open periods are. -/
theorem test_default_cfg_is_wf : Cfg.default.wf = true := by decide

/-! ## Bit formats (30_encoding R80, R81, R90; 10_state R21) -/

theorem test_character_bits :
    charBits (addrCh 0x02) = 0x102 ∧ charBits (dataCh 0x35) = 0x035
    ∧ charOfBits 0x1F0 = addrCh 0xF0 ∧ charOfBits 0x0F0 = dataCh 0xF0 := by decide

theorem test_message_bits : messageBits 0x02 0x35 = 0b1_00000010_0_00110101 := by decide

theorem test_speed_on_the_wire : speedCode 0 = 0x30 ∧ speedCode 9 = 0x39 ∧ digitOf 0x39 = some 9 ∧ digitOf 0x3A = none
    ∧ digitOf 0x2F = none := by decide

theorem test_session_codes :
    ([.standby, .selectSpeed, .selectMode, .noTimer, .enterTimer, .timerRunning, .timerEnded].map sessionCode)
      = [0, 1, 2, 3, 4, 5, 6]
    ∧ sessionOfCode 5 = some .timerRunning ∧ sessionOfCode 7 = none := by decide

/-! ## Decoding: a word written out from the table for every constructor that has bits -/

theorem test_decode_framer :
    read (.sent .inp) [0x02, 0x01, 0x35, 0x00] = some (.send .inp 0x02 0x35)
    ∧ read (.heard .act true) [0x04, 0x01] = some (.rxa .act 0x04)
    ∧ read (.heard .ind true) [0x35, 0x00] = some (.rxdDrop .ind 0x35)
    ∧ read (.heard .dsp false) [0x35, 0x00] = some (.rxdAcc .dsp 0x35) := by decide

theorem test_decode_display :
    read (.accepted .dsp .standby) [0xF0, 0x00] = some (.dspWake 0xF0)
    ∧ read (.accepted .dsp .selectSpeed) [0x39, 0x00] = some (.dspSpeed 9)
    ∧ read (.accepted .dsp .selectMode) [0x31, 0x00] = some (.dspModeNt 1)
    ∧ read (.accepted .dsp .selectMode) [0x30, 0x00] = some .dspModeT
    ∧ read (.accepted .dsp .enterTimer) [0x2A, 0x00] = some .dspTDel
    ∧ read (.accepted .dsp .enterTimer) [0x23, 0x00] = some .dspTOk
    ∧ read (.accepted .dsp .enterTimer) [0x30, 0x00] = some (.dspTDigit 0)
    ∧ read (.accepted .dsp .timerRunning) [0xF0, 0x00] = some .dspRunReset
    ∧ read (.accepted .dsp .noTimer) [0x37, 0x00] = some (.dspRunSpeed 7)
    ∧ read (.accepted .dsp .timerEnded) [0xF0, 0x00] = some .dspEndReset
    ∧ read (.accepted .dsp .timerEnded) [0x35, 0x00] = some (.dspIgn 0x35) := by decide

theorem test_decode_keys :
    read (.pressed .standby) [0x23] = some (.inpWake .hash)
    ∧ read (.pressed .selectSpeed) [0x30] = some (.inpSpeed 0)
    ∧ read (.pressed .selectMode) [0x39] = some (.inpModeNt 9)
    ∧ read (.pressed .selectMode) [0x30] = some .inpModeT
    ∧ read (.pressed .enterTimer) [0x2A] = some .inpTDel
    ∧ read (.pressed .enterTimer) [0x23] = some .inpTOk
    ∧ read (.pressed .enterTimer) [0x37] = some (.inpTDigit 7)
    ∧ read (.pressed .noTimer) [0x37] = some (.inpRunDigit 7)
    ∧ read (.pressed .timerRunning) [0x2A] = some .inpRunReset
    ∧ read (.pressed .noTimer) [0x23] = some (.inpIgn .hash)
    ∧ read (.accepted .inp .standby) [0x55, 0x00] = some (.inpRx 0x55) := by decide

theorem test_decode_indicator :
    read (.accepted .ind .timerEnded) [0xF0, 0x00] = some .indReset
    ∧ read (.accepted .ind .standby) [0xF1, 0x00] = some .indStartNt
    ∧ read (.accepted .ind .noTimer) [0xF2, 0x00] = some .indStartWt
    ∧ read (.accepted .ind .timerRunning) [0xF3, 0x00] = some .indProg
    ∧ read (.accepted .ind .timerRunning) [0x35, 0x00] = some (.indProgAny 0x35)
    ∧ read (.accepted .ind .timerRunning) [0xF4, 0x00] = some .indEnded
    ∧ read (.accepted .ind .noTimer) [0xF3, 0x00] = some (.indIgn 0xF3) := by decide

theorem test_decode_actuator :
    read (.accepted .act .timerEnded) [0xF0, 0x00] = some .actReset
    ∧ read (.accepted .act .noTimer) [0xF4, 0x00] = some .actEnded
    ∧ read (.accepted .act .standby) [0x35, 0x00] = some (.actSpeed 5)
    ∧ read (.accepted .act .standby) [0xF4, 0x00] = some (.actIgn 0xF4) := by decide

theorem test_decode_refuses_by_name :
    refusal (.heard .dsp true) [0x35] = some .tooShort
    ∧ refusal (.heard .dsp true) [0x35, 0x02] = some .notNineBits
    ∧ refusal (.accepted .dsp .standby) [0x35, 0x01] = some .dataExpected
    ∧ refusal (.sent .dsp) [0x03, 0x00, 0xF3, 0x00] = some .addressExpected
    ∧ refusal (.sent .dsp) [0x03, 0x01, 0xF3, 0x01] = some .dataExpected
    ∧ refusal (.sent .ind) [0x03, 0x01, 0xF3, 0x00] = some .notASender
    ∧ refusal (.pressed .standby) [0x41] = some .notAKey
    ∧ refusal (.pressed .standby) [] = some .tooShort := by decide

theorem test_table_words :
    decodeTableWord 9 0x102 = some (.rxa .dsp 0x02) ∧ decodeTableWord 9 0x0F1 = some .indStartNt
    ∧ decodeTableWord 9 0x035 = some (.dspSpeed 5) ∧ decodeTableWord 16 0x200 = none := by decide

/-! ## The framer (V-F1 to V-F5, V-F9) -/

theorem test_send_appends :
    ok (execAll [.send .inp 0x02 0x35, .send .inp 0x04 0x37] s0) (fun t =>
      t.inp.txq == [addrCh 0x02, dataCh 0x35, addrCh 0x04, dataCh 0x37]) := by decide

theorem test_address_opens_one_filter :
    ok (execAll [.send .inp 0x02 0x35, .txc .inp] (dspIn .selectSpeed)) (fun t =>
      !t.dsp.filter && t.ind.filter && t.act.filter && t.inp.filter) := by decide

theorem test_data_runs_at_the_addressee :
    ok (execAll [.send .inp 0x02 0x35, .txc .inp, .txc .inp] (dspIn .selectSpeed)) (fun t =>
      t.dsp.filter && t.disp.speed == 5 && t.dsp.st == .selectMode && t.inp.txq.isEmpty) := by decide

theorem test_address_of_nobody :
    ok (execAll [.send .inp 0x09 0x35, .txc .inp, .txc .inp] (dspIn .selectSpeed)) (fun t =>
      t.dsp.filter && t.dsp.st == .selectSpeed && t.ind.filter && t.act.filter) := by decide

theorem test_second_address_closes_the_first :
    ok (execAll [.rxa .dsp 0x02, .rxa .dsp 0x03] s0) (fun t => t.dsp.filter) := by decide

theorem test_drop_leaves_the_state : exec (.rxdDrop .ind 0x35) s0 = .next s0 := by rfl

/-- The display busy with one message, its filter open, and one byte waiting or not. -/
def busyDsp (r : RxOverrun) (pend : Bool) : State :=
  { s0 with
    cfg := cfgWith r
    dsp := { s0.dsp with
      st := .noTimer, txq := message 0x03 0xF3, filter := false, rxPend := pend, rxBuf := 0x34 } }

theorem test_busy_node_keeps_the_byte :
    ok (exec (.rxdAcc .dsp 0x37) (busyDsp .keepOld false)) (fun t =>
      t.dsp.rxPend && t.dsp.rxBuf == 0x37 && t.dsp.filter && t.disp.speed == 0) := by decide

theorem test_overrun_keeps_old_or_new :
    ok (exec (.rxdAcc .dsp 0x37) (busyDsp .keepOld true)) (fun t => t.dsp.rxBuf == 0x34 && t.dsp.rxPend)
    ∧ ok (exec (.rxdAcc .dsp 0x37) (busyDsp .keepNew true)) (fun t => t.dsp.rxBuf == 0x37 && t.dsp.rxPend) := by
  decide

theorem test_idle_entry_handles_the_byte :
    ok (execAll [.txc .dsp, .txc .dsp] (busyDsp .keepOld true)) (fun t =>
      !t.dsp.rxPend && t.disp.speed == 4 && t.dsp.txq.isEmpty) := by decide

theorem test_rxh_handles_the_byte :
    ok (exec (.rxh .dsp) { busyDsp .keepOld true with dsp := { (busyDsp .keepOld true).dsp with txq := [] } })
      (fun t => !t.dsp.rxPend && t.disp.speed == 4) := by decide

theorem test_overlap_is_a_fault :
    step { busyDsp .keepOld false with
        inp := { s0.inp with txq := message 0x02 0x35 }, inputs := [.ev (.overlap .dsp .inp)] }
      = .fault .busContention := by rfl

/-! ## The display (V-D1 to V-D25) -/

theorem test_dsp_wake : ok (handle .dsp 0xF0 (dspIn .standby)) (fun t =>
    t.dsp.st == .selectSpeed && t.dsp.out == [.screenSpeedPrompt]) := by decide

theorem test_dsp_speed : ok (handle .dsp 0x39 (dspIn .selectSpeed)) (fun t =>
    t.dsp.st == .selectMode && t.disp.speed == 9 && t.dsp.out == [.screenModePrompt]) := by decide

theorem test_dsp_mode_nt : ok (handle .dsp 0x31 (dspWith .selectMode fun d => { d with speed := 5 })) (fun t =>
    t.dsp.st == .noTimer && t.dsp.out == [.screenRunning 5]
    && t.dsp.txq == [addrCh 0x03, dataCh 0xF1, addrCh 0x04, dataCh 0x35]) := by decide

theorem test_dsp_mode_t : ok (handle .dsp 0x30 (dspWith .selectMode fun d => { d with acc := 7 })) (fun t =>
    t.dsp.st == .enterTimer && t.disp.acc == 0 && t.dsp.out == [.screenTimerEntry 0]) := by decide

theorem test_dsp_t_del : ok (handle .dsp 0x2A (dspWith .enterTimer fun d => { d with acc := 12 })) (fun t =>
    t.disp.acc == 1 && t.dsp.out == [.screenTimerEntry 1]) := by decide

theorem test_dsp_t_ok :
    ok (handle .dsp 0x23 (dspWith .enterTimer fun d => { d with acc := 1, speed := 5, parity := true })) (fun t =>
      t.dsp.st == .timerRunning && t.disp.totalMin == 1 && t.disp.remMin == 1 && !t.disp.parity && t.disp.ctRun
      && t.dsp.txq == [addrCh 0x03, dataCh 0xF2, addrCh 0x04, dataCh 0x35]) := by decide

theorem test_dsp_t_digit_fits : ok (handle .dsp 0x35 (dspWith .enterTimer fun d => { d with acc := 25 })) (fun t =>
    t.disp.acc == 255 && t.dsp.out == [.screenTimerEntry 255]) := by decide

theorem test_dsp_t_digit_rejected : ok (handle .dsp 0x36 (dspWith .enterTimer fun d => { d with acc := 25 })) (fun t =>
    t.disp.acc == 25 && t.dsp.out == []) := by decide

theorem test_dsp_run_reset :
    ok (handle .dsp 0xF0 (dspWith .timerRunning fun d =>
      { d with remMin := 3, remSec := 20, ctRun := true, parity := true, ctPend := true })) (fun t =>
      t.dsp.st == .standby && t.dsp.out == [.screenWelcome]
      && t.disp == { DisplayRegs.reset with ctPend := true }) := by decide

theorem test_dsp_run_speed : ok (handle .dsp 0x37 (dspWith .noTimer fun d => { d with speed := 5 })) (fun t =>
    t.disp.speed == 7 && t.dsp.out == [.fieldSpeed 7] && t.dsp.txq == []) := by decide

theorem test_dsp_end_reset :
    ok (handle .dsp 0xF0 (dspWith .timerEnded fun d => { d with barIdx := 14, perIdx := 6 })) (fun t =>
      t.dsp.st == .standby && t.disp == DisplayRegs.reset) := by decide

theorem test_dsp_ign : handle .dsp 0x2A (dspIn .selectSpeed) = .next (dspIn .selectSpeed) := by rfl

/-- V-D23: the state before the tenth elapsed second of a one-minute countdown. -/
def tenthSecond : State :=
  dspWith .timerRunning fun d =>
    { d with totalMin := 1, remSec := 51, parity := true, ctRun := true, barIdx := 2 }

theorem test_dsp_tick_sends_progress : ok (exec .dspTick tenthSecond) (fun t =>
    !t.disp.parity && t.disp.remSec == 50 && t.disp.perIdx == 1 && t.disp.barIdx == 2
    && t.dsp.out == [.fieldTime 0 50] && t.dsp.txq == [addrCh 0x03, dataCh 0xF3]) := by decide

theorem test_dsp_tick_stopped :
    ok (exec .dspTick (dspWith .noTimer fun d => { d with parity := true })) (fun t => t.disp.parity) := by decide

theorem test_dsp_fin_at_zero :
    ok (exec .dspTick (dspWith .timerRunning fun d => { d with parity := true, ctRun := true })) (fun t =>
      t.dsp.st == .timerEnded && !t.disp.ctRun && t.dsp.out == [.screenEnd]
      && t.dsp.txq == message 0x03 0xF4 ++ message 0x04 0xF4 ++ message 0x03 0xF4 ++ message 0x04 0xF4) := by decide

theorem test_dsp_sec_order : ok (exec (.dspSec true true) (dspWith .timerRunning fun d => { d with barIdx := 14 }))
    (fun t => t.dsp.out == [.fieldTime 0 0, .barSegment 13] && t.dsp.txq == message 0x03 0xF3) := by decide

theorem test_dsp_bar_first_segment : ok (exec .dspBar (dspWith .timerRunning fun d => { d with barIdx := 1 }))
    (fun t => t.dsp.out == [.barSegment 0]) := by decide

theorem test_dsp_per : ok (exec .dspPer (dspIn .timerRunning)) (fun t => t.dsp.txq == message 0x03 0xF3) := by
  decide

theorem test_dsp_fin : ok (exec .dspFin (dspIn .timerRunning)) (fun t => t.dsp.txq.length == 8) := by decide

/-! ## The countdown engine (V-C1 to V-C13) -/

/-- A running countdown: total, minutes, seconds, bar index, peripheral index. -/
def counting (total m : Byte) (sec : BitVec 6) (bar : BitVec 4) (per : BitVec 3) : State :=
  dspWith .timerRunning fun d =>
    { d with totalMin := total, remMin := m, remSec := sec, barIdx := bar, perIdx := per, ctRun := true }

theorem test_ct_start : ok (exec (.ctStart 10) (counting 3 1 7 5 2)) (fun t =>
    t.disp.totalMin == 10 && t.disp.remMin == 10 && t.disp.remSec == 0 && t.disp.barIdx == 0
    && t.disp.perIdx == 0 && !t.disp.parity && t.disp.ctRun) := by decide

theorem test_ct_stop : ok (exec .ctStop (counting 3 1 7 5 2)) (fun t =>
    !t.disp.ctRun && t.disp.remMin == 1 && t.disp.barIdx == 5) := by decide

theorem test_ct_tick_rising : ok (exec .ctTick (counting 1 1 0 0 0)) (fun t =>
    t.disp.parity && t.disp.remMin == 1 && t.ret == .none) := by decide

theorem test_ct_tick_falling : ok (execAll [.ctTick, .ctTick] (counting 1 1 0 0 0)) (fun t =>
    !t.disp.parity && t.disp.remMin == 0 && t.disp.remSec == 59 && t.ret == .advanced false false) := by decide

theorem test_ct_second_last : ok (exec .ctSecond (counting 1 0 1 13 5)) (fun t =>
    t.disp.remSec == 0 && t.disp.barIdx == 14 && t.disp.perIdx == 6 && t.ret == .advanced true true) := by decide

theorem test_ct_second_finished : ok (exec .ctSecond (counting 1 0 0 14 6)) (fun t =>
    t.ret == .finished && t.disp.barIdx == 14 && t.disp.ctRun) := by decide

/-- V-C10: both thresholds are met with equality. -/
theorem test_ct_progress_equality :
    ok (exec (.ctProgress .bar) (counting 7 3 30 6 2)) (fun t => t.disp.barIdx == 7 && t.ret == .fired true)
    ∧ ok (exec (.ctProgress .per) (counting 7 3 30 6 2)) (fun t => t.disp.perIdx == 3 && t.ret == .fired true) := by
  decide

/-- V-C9 and V-C13: below the threshold, and saturated. -/
theorem test_ct_progress_not_reached :
    ok (exec (.ctProgress .bar) (counting 10 9 18 0 0)) (fun t => t.disp.barIdx == 0 && t.ret == .fired false)
    ∧ ok (exec (.ctProgress .bar) (counting 10 0 0 14 6)) (fun t => t.disp.barIdx == 14 && t.ret == .fired false) := by
  decide

/-! ## The duty-cycle generator (V-P1 to V-P8) -/

/-- A running generator: speed, counter, enable. -/
def turning (speed : BitVec 4) (cnt : BitVec 7) (en : Bool) : State :=
  actWith .noTimer fun a => { a with speed := speed, dcCnt := cnt, actEn := en, dcRun := true }

theorem test_dc_tick_threshold : ok (execAll [.dcTick, .dcTick] (turning 5 59 true)) (fun t =>
    !t.actr.actEn && t.actr.dcCnt == 61 && t.act.out == [.actEnable false]) := by decide

theorem test_dc_tick_wraps : ok (execAll [.dcTick, .dcTick] (turning 0 99 false)) (fun t =>
    t.actr.actEn && t.actr.dcCnt == 1 && t.act.out == [.actEnable true]) := by decide

theorem test_dc_stop : ok (exec .dcStop (turning 5 37 true)) (fun t =>
    !t.actr.actEn && !t.actr.dcRun && t.actr.dcCnt == 37 && t.act.out == [.actEnable false]) := by decide

theorem test_dc_start : ok (exec .dcStart (actWith .standby fun a => { a with dcCnt := 37 })) (fun t =>
    t.actr.dcRun && t.actr.dcCnt == 37 && !t.actr.actEn) := by decide

theorem test_dc_speed : ok (exec (.dcSpeed 7) (turning 2 50 false)) (fun t =>
    t.actr.speed == 7 && t.actr.dcCnt == 50) := by decide

/-! ## The input node (V-I1 to V-I13) -/

theorem test_inp_wake : ok (press .hash (inpIn .standby)) (fun t =>
    t.inp.st == .selectSpeed && t.inp.txq == [addrCh 0x02, dataCh 0x23]) := by decide

theorem test_inp_speed : ok (press (.digit 0) (inpIn .selectSpeed)) (fun t =>
    t.inp.st == .selectMode && t.inp.txq == [addrCh 0x02, dataCh 0x30]) := by decide

theorem test_inp_mode_nt : ok (press (.digit 9) (inpIn .selectMode)) (fun t =>
    t.inp.st == .noTimer && t.inp.txq == [addrCh 0x02, dataCh 0x39]) := by decide

theorem test_inp_mode_t : ok (press (.digit 0) (inpIn .selectMode)) (fun t =>
    t.inp.st == .enterTimer && t.inp.txq == [addrCh 0x02, dataCh 0x30]) := by decide

theorem test_inp_t_del : ok (press .star (inpIn .enterTimer)) (fun t =>
    t.inp.st == .enterTimer && t.inp.txq == [addrCh 0x02, dataCh 0x2A]) := by decide

theorem test_inp_t_ok : ok (press .hash (inpIn .enterTimer)) (fun t =>
    t.inp.st == .timerRunning && t.inp.txq == [addrCh 0x02, dataCh 0x23]) := by decide

theorem test_inp_t_digit : ok (press (.digit 7) (inpIn .enterTimer)) (fun t =>
    t.inp.st == .enterTimer && t.inp.txq == [addrCh 0x02, dataCh 0x37]) := by decide

theorem test_inp_run_digit : ok (press (.digit 7) (inpIn .noTimer)) (fun t =>
    t.inp.st == .noTimer && t.inp.txq == [addrCh 0x04, dataCh 0x37, addrCh 0x02, dataCh 0x37]) := by decide

theorem test_inp_run_reset : ok (press .star (inpIn .timerRunning)) (fun t =>
    t.inp.st == .standby
    && t.inp.txq == [addrCh 0x02, dataCh 0xF0, addrCh 0x03, dataCh 0xF0, addrCh 0x04, dataCh 0xF0]) := by decide

theorem test_inp_ign : press .hash (inpIn .noTimer) = .next (inpIn .noTimer) := by rfl

theorem test_inp_rx : handle .inp 0x55 (inpIn .enterTimer) = .next (inpIn .enterTimer) := by rfl

/-! ## The indicator (V-N1 to V-N14) -/

theorem test_ind_start_nt : ok (handle .ind 0xF1 s0) (fun t =>
    t.ind.st == .noTimer && t.indr.blinkRun && t.indr.frameRun && t.ind.out == [.indProgress 0]) := by decide

theorem test_ind_start_wt_restarts :
    ok (handle .ind 0xF2 (indWith .timerRunning fun r => { r with progIdx := 4 })) (fun t =>
      t.ind.st == .timerRunning && t.indr.progIdx == 0 && t.ind.out == [.indProgress 0]) := by decide

theorem test_ind_prog : ok (handle .ind 0xF3 (indWith .timerRunning fun r => { r with progIdx := 2 })) (fun t =>
    t.indr.progIdx == 3 && t.ind.out == [.indProgress 3]) := by decide

theorem test_ind_prog_saturates :
    ok (handle .ind 0xF3 (indWith .timerRunning fun r => { r with progIdx := 6 })) (fun t =>
      t.indr.progIdx == 6 && t.ind.out == [.indProgress 6]) := by decide

theorem test_ind_prog_any : ok (handle .ind 0x35 (indWith .timerRunning fun r => { r with progIdx := 2 })) (fun t =>
    t.indr.progIdx == 3) := by decide

theorem test_ind_ended :
    ok (handle .ind 0xF4 (indWith .timerRunning fun r =>
      { r with progIdx := 6, blinkRun := true, frameRun := true, frame := true })) (fun t =>
      t.ind.st == .timerEnded && t.indr.progIdx == 6 && !t.indr.blinkRun && !t.indr.frameRun && t.indr.frame
      && t.ind.out == []) := by decide

theorem test_ind_reset :
    ok (handle .ind 0xF0 (indWith .timerRunning fun r => { r with progIdx := 4, frame := true })) (fun t =>
      t.ind.st == .standby && t.indr == IndicatorRegs.reset && t.ind.out == [.indFrame false, .indProgress 0]) := by
  decide

theorem test_ind_ign : handle .ind 0xF4 (indWith .noTimer id) = .next (indWith .noTimer id) := by rfl

theorem test_ind_blink : ok (exec .indBlink (indWith .noTimer fun r => { r with blinkRun := true })) (fun t =>
    t.indr.blinkPhase && t.ind.out == [.indBlink true]) := by decide

theorem test_ind_frame :
    ok (exec .indFrame (indWith .standby fun r => { r with frame := true })) (fun t =>
      t.indr.frame && t.ind.out == [])
    ∧ ok (exec .indFrame (indWith .noTimer fun r => { r with frame := true, frameRun := true })) (fun t =>
      !t.indr.frame && t.ind.out == [.indFrame false]) := by decide

/-! ## The actuator (V-A1 to V-A10) -/

theorem test_act_speed_starts : ok (handle .act 0x35 s0) (fun t =>
    t.act.st == .noTimer && t.actr.speed == 5 && t.actr.dcRun && !t.actr.actEn && t.act.out == []) := by decide

theorem test_act_speed_after_the_end :
    ok (handle .act 0x37 (actWith .timerEnded fun a => { a with speed := 3, done := true })) (fun t =>
      t.act.st == .timerEnded && t.actr.speed == 7 && !t.actr.dcRun) := by decide

theorem test_act_ended : ok (handle .act 0xF4 (turning 5 37 true)) (fun t =>
    t.act.st == .timerEnded && !t.actr.dcRun && !t.actr.actEn && t.actr.done && t.actr.dcCnt == 37
    && t.act.out == [.actEnable false, .actDone true]) := by decide

theorem test_act_reset : ok (handle .act 0xF0 (turning 5 37 true)) (fun t =>
    t.act.st == .standby && t.actr == ActuatorRegs.reset && t.act.out == [.actEnable false]) := by decide

theorem test_act_ign : handle .act 0x2A (turning 5 37 true) = .next (turning 5 37 true) := by rfl

theorem test_act_tick : ok (exec .actTick (turning 9 99 true)) (fun t =>
    t.actr.actEn && t.actr.dcCnt == 0 && t.act.out == []) := by decide

/-! ## Reset and pending events (V-R1 to V-R4) -/

theorem test_reset_values : ∀ n, powerOnValues n State.reset := by
  intro n
  cases n <;> simp only [powerOnValues, State.node] <;> decide

theorem test_reset_in_enter_timer_is_ignored :
    ok (handle .dsp 0xF0 (dspWith .enterTimer fun d => { d with acc := 12 })) (fun t =>
      t.dsp.st == .enterTimer && t.disp.acc == 12) := by decide

/-- V-R4: RESET waits at the busy display; the framer's registers and `ct_pend` are not written. -/
theorem test_reset_waits_at_a_busy_display :
    ok (exec (.rxdAcc .dsp 0xF0) { busyDsp .keepOld false with disp := { s0.disp with ctPend := true } }) (fun t =>
      t.dsp.rxPend && t.disp.ctPend && t.dsp.st == .noTimer && t.dsp.txq.length == 2) := by decide

/-- V-R5: a second tick at the busy display merges with the first. -/
theorem test_second_tick_merges :
    ok (runSteps 2 { busyDsp .keepOld false with inputs := [.ev .ctTick, .ev .ctTick] }) (fun t =>
      t.disp.ctPend && !t.disp.parity) := by decide

/-- Log 25: a tick at the busy display waits, whatever `ct_run` is, and does nothing when it is handled stopped. -/
theorem test_tick_waits_at_a_stopped_engine :
    ok (runSteps 3 { busyDsp .keepOld false with inputs := [.ev .ctTick, .ev (.slot .dsp), .ev (.slot .dsp)] }) (fun t =>
      !t.disp.ctPend && !t.disp.parity && t.dsp.st == .noTimer) := by decide

/-- A table word is read by the very next step, from reset. -/
theorem test_fetch_word : ok (step (State.reset.withFetchWord 9 0x0F1)) (fun t => t.ind.st == .noTimer) := by decide

/-! ## Witnesses: states and operands that meet the statements' hypotheses, at boundary values -/

/-- The input node with the message of a key to the display in its queue. -/
def sending (st : SessionState) : State :=
  { dspIn st with inp := { s0.inp with txq := message 0x02 0x35 } }

/-- For PowerCycleRetainsNothing. -/
theorem witness_power_cycle :
    s0.cfg.wf = true
    ∧ ok (runSteps 2 { busyDsp .keepOld true with inputs := [.ev (.resetOn .dsp), .ev (.resetOff .dsp)] })
      (fun t => t.dsp.st == .standby && t.dsp.txq.isEmpty && t.disp == DisplayRegs.reset && t.dsp.filter
        && t.dsp.out == [.screenWelcome]) := by decide

/-- For FilterSelectsTheReceiver. -/
theorem witness_filter_selects :
    s0.dsp.filter = true ∧ (0x02 : Byte) = s0.cfg.addr .dsp ∧ (0x03 : Byte) ≠ s0.cfg.addr .dsp := by decide

/-- For OpenFilterAcceptsData. -/
theorem witness_open_filter :
    (busyDsp .keepOld false).dsp.filter = false ∧ (busyDsp .keepOld false).idle .dsp = false
    ∧ (busyDsp .keepOld false).dsp.rxPend = false
    ∧ (busyDsp .keepNew true).dsp.rxPend = true ∧ (busyDsp .keepNew true).cfg.rxOverrun = .keepNew
    ∧ (busyDsp .keepOld true).cfg.rxOverrun = .keepOld
    ∧ (setFilter .ind false s0).ind.filter = false ∧ (setFilter .ind false s0).idle .ind = true := by decide

/-- For SlotReachesEveryOtherNode. -/
theorem witness_slot_with_more : ∃ t, exec (.txc .inp) (sending .standby) = .next t := ⟨_, rfl⟩

/-- For SlotReachesEveryOtherNode and FilterFollowsTheLastCharacter. -/
theorem witness_slot_conditions :
    (sending .standby).inp.txq = [addrCh 0x02, dataCh 0x35]
    ∧ (sending .standby).dsp.txEn = false ∧ (sending .standby).ind.txEn = false
    ∧ (sending .standby).act.txEn = false := by decide

/-- The display before its last slot, with a pending byte or not, a pending tick or not. -/
def lastSlot (byte tick : Bool) : State :=
  { busyDsp .keepOld byte with
    dsp := { (busyDsp .keepOld byte).dsp with txq := [dataCh 0xF3] }
    disp := { s0.disp with ctPend := tick } }

/-- For LastSlotEndsInIdleEntry, each case. -/
theorem witness_last_slot :
    (lastSlot false false).dsp.rxPend = false ∧ (lastSlot false false).disp.ctPend = false
    ∧ (lastSlot true false).dsp.rxPend = true ∧ (lastSlot false true).disp.ctPend = true
    ∧ (lastSlot true true).dsp.rxPend = true ∧ (lastSlot true true).disp.ctPend = true
    ∧ (lastSlot true true).dsp.txq = [dataCh 0xF3] := by decide

/-- For LastSlotEndsInIdleEntry. -/
theorem witness_last_slot_completes (byte tick : Bool) : ∃ t, exec (.txc .dsp) (lastSlot byte tick) = .next t := by
  exact ⟨_, rfl⟩

/-- The input node and the display both with a message in their queues. -/
def bothSending (rest : List Input) : State :=
  { busyDsp .keepOld false with
    inp := { s0.inp with txq := message 0x02 0x35 }
    inputs := .ev (.overlap .inp .dsp) :: rest }

/-- For OverlappingSlotFaults: the fault in a slot and in a step, and an overlap that cannot occur. -/
theorem witness_overlap :
    exec (.txc .inp) (setTxEn .dsp true (sending .standby)) = .fault .busContention
    ∧ exec (.txc .ind) s0 = .next s0
    ∧ (bothSending []).cfg.wf = true ∧ (bothSending []).inp.txq ≠ [] ∧ (bothSending []).dsp.txq ≠ []
    ∧ step (bothSending []) = .fault .busContention
    ∧ step { s0 with inputs := [.ev (.overlap .inp .dsp)] } = .next s0 := by
  exact ⟨rfl, rfl, by decide, by decide, by decide, rfl, rfl⟩

/-- For MessageRunsAtItsAddresseeAlone. -/
theorem witness_message_runs :
    (sending .selectSpeed).cfg.wf = true ∧ allListening (sending .selectSpeed)
    ∧ (sending .selectSpeed).inp.txq = [⟨true, (sending .selectSpeed).cfg.addr .dsp⟩, ⟨false, 0x35⟩]
    ∧ (sending .selectSpeed).idle .dsp = true ∧ (sending .selectSpeed).inp.rxPend = false := by
  refine ⟨by decide, ?_, by decide, by decide, by decide⟩
  intro n
  cases n <;> exact ⟨rfl, rfl⟩

/-- For the display's, the input node's and the actuator's digit clauses. -/
theorem witness_digit_codes :
    (0x30 : Byte).toNat = 0x30 + (0 : Digit).val ∧ (0x39 : Byte).toNat = 0x30 + (9 : Digit).val
    ∧ (0x31 : Byte).toNat = 0x30 + (1 : Digit).val ∧ (1 : Digit) ≠ 0
    ∧ ¬ (0x30 ≤ (0x2F : Byte).toNat ∧ (0x2F : Byte).toNat ≤ 0x39)
    ∧ ¬ (0x30 ≤ (0x3A : Byte).toNat ∧ (0x3A : Byte).toNat ≤ 0x39)
    ∧ (0x2F : Byte) ≠ s0.cfg.dDelete ∧ (0x2F : Byte) ≠ s0.cfg.dConfirm ∧ (0x2F : Byte) ≠ s0.cfg.dReset := by decide

/-- 255 fits, 256 does not. -/
theorem witness_overflow_guard :
    (25 : Byte).toNat * 10 + (5 : Digit).val ≤ s0.cfg.minMax
    ∧ s0.cfg.minMax < (25 : Byte).toNat * 10 + (6 : Digit).val
    ∧ decimal 0 [2, 5, 5] ≤ s0.cfg.minMax ∧ s0.cfg.minMax < decimal 0 [2, 5, 6]
    ∧ guarded 255 0 [2, 5, 5, 0] = 255 := by decide

/-- For DisplayTickActsOnTheEnginesResult, each result. -/
theorem witness_display_tick :
    ok (exec .ctTick (counting 1 1 0 0 0)) (fun u => u.ret == .none)
    ∧ ok (exec .ctTick (dspWith .timerRunning fun d => { d with parity := true, ctRun := true }))
      (fun u => u.ret == .finished)
    ∧ ok (exec .ctTick tenthSecond) (fun u => u.ret == .advanced false true)
    ∧ (dspIn .noTimer).disp.ctRun = false := by decide

/-- For DisplaySecondOutputs. -/
theorem witness_bar_index :
    (counting 1 0 55 1 0).disp.barIdx.toNat = 0 + 1 ∧ (counting 1 0 0 14 6).disp.barIdx.toNat = 13 + 1 := by decide

/-- For CountdownTickTogglesParity. -/
theorem witness_countdown_tick :
    (dspIn .noTimer).disp.ctRun = false
    ∧ (counting 1 1 0 0 0).disp.ctRun = true ∧ (counting 1 1 0 0 0).disp.parity = false
    ∧ tenthSecond.disp.ctRun = true ∧ tenthSecond.disp.parity = true := by decide

/-- For CountdownSecondDecrements. -/
theorem witness_countdown_second :
    ((counting 1 0 0 14 6).disp.remMin = 0 ∧ (counting 1 0 0 14 6).disp.remSec = 0)
    ∧ (counting 1 1 0 0 0).disp.remSec = 0 ∧ ¬ (counting 1 1 0 0 0).disp.remMin = 0
    ∧ ¬ (counting 1 0 1 13 5).disp.remSec = 0 := by decide

/-- V-C10 (equality), V-C12 (the largest product), V-C13 (saturated) and V-C9 (not reached). -/
theorem witness_threshold :
    (3 * 60 + 30 ≤ 7 * 60 ∧ 6 < 14 ∧ (6 + 1) * 420 ≤ (420 - 3 * 60 - 30) * 14
      ∧ 2 < 6 ∧ (2 + 1) * 420 ≤ (420 - 3 * 60 - 30) * 6)
    ∧ (13 + 1) * 15300 ≤ (15300 - 0 * 60 - 0) * 14
    ∧ ¬ (14 < 14 ∧ (14 + 1) * 600 ≤ (600 - 0 * 60 - 0) * 14)
    ∧ ¬ (0 < 14 ∧ (0 + 1) * 600 ≤ (600 - 9 * 60 - 18) * 14)
    ∧ ¬ (6 < 6 ∧ (6 + 1) * 600 ≤ (600 - 0 * 60 - 0) * 6) := by decide

/-- For FullCountdownFiresFourteenAndSix and CountdownFinishesAtItsTick. -/
theorem witness_countdown_bounds :
    1 ≤ (1 : Byte).toNat ∧ 60 ≤ (1 : Byte).toNat * 60 ∧ 1 ≤ (255 : Byte).toNat ∧ 15300 ≤ (255 : Byte).toNat * 60
    ∧ 2 ≤ 2 * (60 * (0 : Byte).toNat + 1) := by decide

/-- R168: a zero-minute countdown finishes at tick 2. -/
theorem witness_zero_countdown :
    ok (execAll (.ctStart 0 :: List.replicate 2 .ctTick) s0) (fun t =>
      t.ret == .finished && t.disp.barIdx == 0 && t.disp.perIdx == 0) := by decide

/-- For TimedSessionEndsAtItsTick. -/
theorem witness_zero_session :
    ok (execAll (.dspTOk :: List.replicate 1 .dspTick) (dspIn .enterTimer)) (fun t => t.dsp.st == .timerRunning)
    ∧ ok (execAll (.dspTOk :: List.replicate 2 .dspTick) (dspIn .enterTimer)) (fun t => t.dsp.st == .timerEnded) := by
  decide

/-- For DutyCycleIsExactlyTenSPlusTenPercent and GeneratorTickComparesThenCounts. -/
theorem witness_generator :
    (turning 9 99 true).actr.dcRun = true ∧ (turning 9 99 true).actr.dcCnt.toNat ≤ 99
    ∧ (turning 9 99 true).actr.speed.toNat ≤ 9 ∧ (turning 0 0 false).actr.dcCnt = 0
    ∧ s0.actr.dcRun = false := by decide

/-- For the input node's statements. -/
theorem witness_input_keys :
    s0.cfg.wf = true ∧ (1 : Digit) ≠ 0 ∧ (Key.hash = .star ∨ Key.hash = .hash) ∧ Key.hash ≠ s0.cfg.keyReset := by
  decide

/-- For the indicator's statements. -/
theorem witness_indicator :
    s0.cfg.wf = true ∧ (0x35 : Byte) ≠ s0.cfg.iReset ∧ (0x35 : Byte) ≠ s0.cfg.iStartNt
    ∧ (0x35 : Byte) ≠ s0.cfg.iStartWt ∧ (0x35 : Byte) ≠ s0.cfg.iProgress ∧ (0x35 : Byte) ≠ s0.cfg.iEnded
    ∧ SessionState.noTimer ≠ .timerRunning
    ∧ (5 : BitVec 3).toNat < 6 ∧ 6 ≤ (6 : BitVec 3).toNat
    ∧ (indWith .noTimer fun r => { r with blinkRun := true, frameRun := true }).indr.blinkRun = true
    ∧ s0.indr.blinkRun = false ∧ s0.indr.frameRun = false := by decide

/-- For ActuatorResetAndEnded and ActuatorSpeedIgnoredTick. -/
theorem witness_actuator :
    s0.cfg.wf = true ∧ s0.act.st = .standby ∧ (turning 5 0 true).act.st ≠ .standby
    ∧ SessionState.standby ≠ .noTimer
    ∧ (0x2A : Byte) ≠ s0.cfg.aReset ∧ (0x2A : Byte) ≠ s0.cfg.aEnded
    ∧ ¬ (0x30 ≤ (0x2A : Byte).toNat ∧ (0x2A : Byte).toNat ≤ 0x39) := by decide

/-- For DecodeAfterEncode, EncodeAfterDecode and EveryPayloadSelectsOneOperation. -/
theorem witness_round_trip :
    s0.cfg.wf = true ∧ (Instr.dspModeNt 9).wf s0.cfg = true
    ∧ admits s0.cfg (.accepted .dsp .selectMode) (.dspModeNt 9) = true
    ∧ admits s0.cfg (.sent .dsp) (.send .dsp 0x03 0xF3) = true
    ∧ admits s0.cfg (.pressed .timerRunning) .inpRunReset = true
    ∧ admits s0.cfg (.heard .ind false) (.rxdAcc .ind 0xFF) = true
    ∧ read (.accepted .dsp .selectMode) [0x39, 0x00] = some (.dspModeNt 9) := by decide

/-- One input of each kind whose step runs an operation. -/
theorem witness_step_runs :
    ok (step { s0 with inputs := [.char .dsp (addrCh 0x02)] }) (fun t => !t.dsp.filter)
    ∧ ok (step { s0 with inputs := [.byte .ind 0xF1] }) (fun t => t.ind.st == .noTimer)
    ∧ ok (step { s0 with inputs := [.ev (.key .star)] }) (fun t => t.inp.st == .selectSpeed)
    ∧ ok (step { counting 1 1 0 0 0 with inputs := [.ev .ctTick] }) (fun t => t.disp.parity)
    ∧ ok (step { (indWith .noTimer fun r => { r with blinkRun := true, frameRun := true }) with
        inputs := [.ev .blinkTick] }) (fun t => t.indr.blinkPhase)
    ∧ ok (step { (indWith .noTimer fun r => { r with blinkRun := true, frameRun := true }) with
        inputs := [.ev .frameTick] }) (fun t => t.indr.frame)
    ∧ ok (step { turning 5 0 false with inputs := [.ev .dcTick] }) (fun t => t.actr.actEn)
    ∧ ok (step { sending .standby with inputs := [.ev (.slot .inp)] }) (fun t => !t.dsp.filter) := by decide

/-- For StepRunsTheSelectedOperation. -/
theorem witness_step_decodes :
    s0.cfg.wf = true ∧ read (.heard .dsp true) (charBytes (addrCh 0x02)) = some (.rxa .dsp 0x02)
    ∧ read (.accepted .ind .standby) (payloadBytes 0xF1) = some .indStartNt
    ∧ read (.pressed .standby) [keycode .star] = some (.inpWake .star) := by decide

/-- For BusyNodeKeepsByteAndTick. -/
theorem witness_busy_node :
    (busyDsp .keepOld false).dsp.rst = false ∧ (busyDsp .keepOld false).idle .dsp = false
    ∧ (sending .standby).idle .inp = false ∧ (busyDsp .keepNew true).dsp.rxPend = true
    ∧ (busyDsp .keepNew true).cfg.wf = true := by decide

/-- A node held in reset. -/
def held (n : NodeId) : State := holdReset n s0

/-- For StepConventions. -/
theorem witness_step_conventions :
    ({ s0.cfg with minMax := 0 } : Cfg).wf = false ∧ s0.inputs = [] ∧ s0.idle .inp = true
    ∧ (held .dsp).dsp.rst = true ∧ (held .inp).inp.rst = true ∧ (held .act).act.rst = true
    ∧ (held .ind).ind.rst = true
    ∧ step { held .dsp with inputs := [.ev .ctTick] } = .next (held .dsp)
    ∧ step { held .ind with inputs := [.char .ind (addrCh 0x03)] } = .next (held .ind) :=
  ⟨by decide, rfl, rfl, rfl, rfl, rfl, rfl, rfl, rfl⟩

/-- For StepKeepsTheNodeInvariant and OnlyTheListedTransitions. -/
theorem witness_invariant : Inv { sending .selectSpeed with inputs := [.ev (.slot .inp)] } := by
  refine ⟨⟨by decide, by decide⟩, by decide, by decide, by decide, ?_, rfl, rfl, by decide, by decide, ?_, fun _ => rfl⟩
  · intro n; cases n <;> rfl
  · intro n _; cases n <;> rfl

/-- For StepKeepsTheBusDiscipline. -/
theorem witness_bus_discipline :
    BusInv { sending .selectSpeed with inputs := [.ev (.slot .inp)] }
    ∧ QueueInv { sending .selectSpeed with inputs := [.ev (.slot .inp)] } := by
  refine ⟨⟨by decide, by decide, rfl, rfl, rfl, rfl, by decide⟩, ?_⟩
  intro n
  cases n <;> decide

/-- For the statements that ask for a next state. -/
theorem witness_step_answers :
    (∃ t, step { sending .selectSpeed with inputs := [.ev (.slot .inp)] } = .next t)
    ∧ (∃ t, step { busyDsp .keepOld false with inputs := [.ev (.slot .dsp)] } = .next t)
    ∧ (∃ t, step { tenthSecond with inputs := [.ev .ctTick] } = .next t)
    ∧ ∃ t, exec (.dspSpeed 5) s0 = .next t := ⟨⟨_, rfl⟩, ⟨_, rfl⟩, ⟨_, rfl⟩, ⟨_, rfl⟩⟩

/-- For BusyNodeIsACriticalSection. -/
theorem witness_critical_section :
    (busyDsp .keepOld false).idle .dsp = false ∧ (busyDsp .keepOld false).dsp.rst = false
    ∧ (busyDsp .keepOld false).dsp.txq = [addrCh 0x03, dataCh 0xF3]
    ∧ (nextInput { busyDsp .keepOld false with inputs := [.ev (.slot .dsp)] }).1 = .ev (.slot .dsp)
    ∧ (nextInput { busyDsp .keepOld false with inputs := [.ev .ctTick] }).1 ≠ .ev (.slot .dsp) := by decide

/-- V-F10's start with a foreign address character: the indicator and the actuator in their running states. -/
def endOfTimer (a : Byte) : State :=
  { s0 with
    inp := { s0.inp with txq := [addrCh a] }
    ind := { s0.ind with st := .timerRunning }
    act := { s0.act with st := .noTimer } }

/-- For DoubleTimerEndedSurvivesAForeignAddress. -/
theorem witness_double_timer_ended :
    (endOfTimer 0x04).cfg.wf = true ∧ (endOfTimer 0x04).cfg.iEnded = (endOfTimer 0x04).cfg.aEnded
    ∧ (endOfTimer 0x04).dsp.txq = [] ∧ (endOfTimer 0x04).inp.txq = [⟨true, 0x04⟩]
    ∧ (endOfTimer 0x04).ind.txq = [] ∧ (endOfTimer 0x04).act.txq = []
    ∧ (endOfTimer 0x04).ind.st = .timerRunning ∧ (endOfTimer 0x04).act.st = .noTimer := by decide

/-- For DoubleTimerEndedSurvivesAForeignAddress. -/
theorem witness_double_timer_ended_listens : allListening (endOfTimer 0x04) := by
  intro n
  cases n <;> exact ⟨rfl, rfl⟩

/-- The foreign address right after the first `A.03`: the first copy is lost, the second ends the session. -/
theorem test_double_timer_ended :
    ok (execAll (.dspFin :: .txc .dsp :: .txc .inp :: List.replicate 7 (.txc .dsp)) (endOfTimer 0x04)) (fun t =>
      t.ind.st == .timerEnded && t.act.st == .timerEnded) := by decide

/-- A foreign DATA character there is taken as the indicator's payload: with `I_RESET` it ends in `Standby`, so
R291's property does not hold of every foreign character. -/
theorem test_foreign_data_character_resets_the_indicator :
    ok (execAll (.dspFin :: .txc .dsp :: .txc .inp :: List.replicate 7 (.txc .dsp))
      { endOfTimer 0 with inp := { s0.inp with txq := [dataCh 0xF0] } }) (fun t => t.ind.st == .standby) := by decide

/-- Every node idle and the display in `TimerEnded`, the mirror still in `TimerRunning`. -/
def afterTheEnd : State :=
  { dspIn .timerEnded with
    inp := { s0.inp with st := .timerRunning }
    ind := { s0.ind with st := .timerEnded }
    act := { s0.act with st := .timerEnded }
    actr := { s0.actr with done := true } }

/-- For ResetKeyResetsAllFourNodes. -/
theorem witness_reset_key :
    afterTheEnd.cfg.wf = true ∧ allListening afterTheEnd
    ∧ (∀ n, afterTheEnd.idle n = true ∧ (afterTheEnd.node n).rxPend = false) ∧ afterTheEnd.dsp.st = .timerEnded := by
  refine ⟨by decide, ?_, ?_, rfl⟩ <;> intro n <;> cases n <;> exact ⟨rfl, rfl⟩

end Sys2Proof.Tests
end

section
/-! SUPPORT. Proofs of family 00_scope: the accumulate-with-guard law along a sequence of digits (R17). -/

namespace Sys2Proof.Machine

/-! ## Running a list of operations -/

theorem execAll_cons_of_next {i : Instr} {s t : State} (h : exec i s = .next t) (is : List Instr) :
    execAll (i :: is) s = execAll is t := by
  simp [execAll, h]

/-- Operations that always complete run as a fold of their effects. -/
theorem execAll_map_of_next {α : Type} {f : α → Instr} {g : α → State → State}
    (h : ∀ a s, exec (f a) s = .next (g a s)) (as : List α) (s : State) :
    execAll (as.map f) s = .next (as.foldl (fun s a => g a s) s) := by
  induction as generalizing s with
  | nil => rfl
  | cons a as ih => rw [List.map_cons, execAll_cons_of_next (h a s), ih, List.foldl_cons]

/-! ## The accumulate-with-guard law on numbers -/

theorem guarded_cons (m a : Nat) (d : Digit) (ds : List Digit) :
    guarded m a (d :: ds) = guarded m (if a * 10 + d.val ≤ m then a * 10 + d.val else a) ds := rfl

theorem decimal_cons (a : Nat) (d : Digit) (ds : List Digit) :
    decimal a (d :: ds) = decimal (a * 10 + d.val) ds := rfl

theorem le_decimal (a : Nat) (ds : List Digit) : a ≤ decimal a ds := by
  induction ds generalizing a with
  | nil => exact le_refl a
  | cons d ds ih =>
    have h := ih (a * 10 + d.val)
    rw [decimal_cons]
    omega

/-- Every prefix of a number in range is in range, so the guard never refuses a digit of it. -/
theorem guarded_eq_decimal {m a : Nat} {ds : List Digit} (h : decimal a ds ≤ m) :
    guarded m a ds = decimal a ds := by
  induction ds generalizing a with
  | nil => rfl
  | cons d ds ih =>
    rw [decimal_cons] at h ⊢
    have hd : a * 10 + d.val ≤ m := (le_decimal _ ds).trans h
    rw [guarded_cons, if_pos hd, ih h]

/-! ## One digit at the display -/

theorem exec_dspTDigit (d : Digit) (s : State) : exec (.dspTDigit d) s = .next (dspTDigit d s) := rfl

@[simp] theorem dspTDigit_cfg (d : Digit) (s : State) : (dspTDigit d s).cfg = s.cfg := by
  obtain ⟨-, hcfg, -⟩ := dspTDigit_frame d s
  exact hcfg

theorem dspTDigit_disp (d : Digit) (s : State) :
    (dspTDigit d s).disp = { s.disp with acc := (dspTDigit d s).disp.acc } := by
  unfold dspTDigit
  split
  · simp [emit]
  · rfl

theorem dspTDigit_acc_toNat (d : Digit) {s : State} (hw : s.cfg.wf = true) :
    (dspTDigit d s).disp.acc.toNat
      = if s.disp.acc.toNat * 10 + d.val ≤ s.cfg.minMax then s.disp.acc.toNat * 10 + d.val
        else s.disp.acc.toNat := by
  simp only [← Laws.digitFits_iff]
  unfold dspTDigit
  split
  · next hfit => exact (appendDigit_toNat hw hfit).1
  · rfl

/-! ## A sequence of digits at the display -/

/-- The state after a sequence of digits in `EnterTimer` (41_display R137). -/
def dspTDigits (ds : List Digit) (s : State) : State :=
  ds.foldl (fun s d => dspTDigit d s) s

theorem dspTDigits_cons (d : Digit) (ds : List Digit) (s : State) :
    dspTDigits (d :: ds) s = dspTDigits ds (dspTDigit d s) := rfl

theorem execAll_dspTDigits (ds : List Digit) (s : State) :
    execAll (ds.map .dspTDigit) s = .next (dspTDigits ds s) :=
  execAll_map_of_next exec_dspTDigit ds s

theorem dspTDigits_disp (ds : List Digit) (s : State) :
    (dspTDigits ds s).disp = { s.disp with acc := (dspTDigits ds s).disp.acc } := by
  induction ds generalizing s with
  | nil => rfl
  | cons d ds ih => rw [dspTDigits_cons, ih, dspTDigit_disp]

theorem dspTDigits_acc_toNat (ds : List Digit) {s : State} (hw : s.cfg.wf = true) :
    (dspTDigits ds s).disp.acc.toNat = guarded s.cfg.minMax s.disp.acc.toNat ds := by
  induction ds generalizing s with
  | nil => rfl
  | cons d ds ih =>
    have hw' : (dspTDigit d s).cfg.wf = true := by rwa [dspTDigit_cfg]
    rw [dspTDigits_cons, ih hw', dspTDigit_cfg, dspTDigit_acc_toNat d hw, guarded_cons]

/-- Settles O15: the run is a fold of `dspTDigit`, whose accumulator follows the guarded fold digit by digit, and
no guard refuses while the number formed is in range. -/
theorem accumulatorIsTheDecimalNumber : Obligations.AccumulatorIsTheDecimalNumber := by
  intro ds s hw
  have hacc := dspTDigits_acc_toNat ds hw
  exact ⟨dspTDigits ds s, execAll_dspTDigits ds s, dspTDigits_disp ds s, hacc,
    fun hrange => hacc.trans (guarded_eq_decimal hrange)⟩

end Sys2Proof.Machine
end

section
/-! SUPPORT. What one step of the machine does at one node: the inversion lemma of `step` from which the invariants
and the frames of family 10_state are read off, node by node. -/

namespace Sys2Proof.Machine

theorem idle_iff {n : NodeId} {s : State} : s.idle n = true ↔ (s.node n).txq = [] := by
  simp [State.idle]

/-- Reading the next input leaves every node as it was. -/
theorem nextInput_agrees (m : NodeId) (s : State) : agreesAt m s (nextInput s).2 := by
  unfold nextInput
  split <;> exact ⟨by cases m <;> rfl, by cases m <;> simp [sameRole], rfl⟩

/-- A node's record after a slot of its own that leaves `rest` in the queue (40_framer R112). -/
def dropHead (rest : List Char9) (x : Node) : Node := { x with txEn := false, txq := rest }

/-- Everything one step can do at node `m`, by the input it reads: `s` is the state with the input read. -/
inductive NodeStep : NodeId → Input → State → State → Prop
  | untouched {m i s t} (hslot : i = .ev (.slot m) → (s.node m).rst = true ∨ s.idle m = true)
      (h : agreesAt m s t) : NodeStep m i s t
  | hears {m i s t} (c : Char9) (hslot : i ≠ .ev (.slot m)) (h : agreesAt m (rxChar m c s) t) : NodeStep m i s t
  | sends {m s u t} (c : Char9) (rest : List Char9) (hq : (s.node m).txq = c :: rest)
      (hu : agreesAt m (modNode m (dropHead rest) s) u) (ht : t = if rest = [] then idleEntry m u else u) :
      NodeStep m (.ev (.slot m)) s t
  | accepts {m s} (p : Byte) (hidle : s.idle m = true) : NodeStep m (.byte m p) s (rx m p s)
  | keeps {m s} (p : Byte) (hbusy : s.idle m = false) : NodeStep m (.byte m p) s (keepByte m p s)
  | key {s t} (k : Key) (hidle : s.idle .inp = true) (h : exec (keyInstr s.cfg s.inp.st k) s = .next t) :
      NodeStep .inp (.ev (.key k)) s t
  | tick {s} (hidle : s.idle .dsp = true) : NodeStep .dsp (.ev .ctTick) s (dspTick s)
  | keepsTick {s} (hbusy : s.idle .dsp = false) : NodeStep .dsp (.ev .ctTick) s (keepTick s)
  | duty {s} : NodeStep .act (.ev .dcTick) s (dcTick s)
  | blink {s} : NodeStep .ind (.ev .blinkTick) s (indBlink s)
  | frame {s} : NodeStep .ind (.ev .frameTick) s (indFrame s)
  | held {m s} : NodeStep m (.ev (.resetOn m)) s (holdReset m s)
  | released {m s} (hrst : (s.node m).rst = true) : NodeStep m (.ev (.resetOff m)) s (releaseReset m s)

/-! ## Operations at one node -/

theorem localTo_cfg {m : NodeId} {s t : State} (h : localTo m s t) : t.cfg = s.cfg := h.2.1

theorem agreesAt_cfg {m : NodeId} {s t : State} (h : agreesAt m s t) : t.cfg = s.cfg := h.2.2

/-- The two local timers' handlers (45_indicator R218, R219). -/
theorem indBlink_frame (s : State) : handlerFrame .ind s (indBlink s) := by
  unfold indBlink
  split
  · exact handlerFrame_trans (modIndr_frame _ s) (emit_frame _ _ _)
  · exact handlerFrame_refl _ _

theorem indFrame_frame (s : State) : handlerFrame .ind s (indFrame s) := by
  unfold indFrame
  split
  · exact handlerFrame_trans (modIndr_frame _ s) (emit_frame _ _ _)
  · exact handlerFrame_refl _ _

theorem resetRole_local (n : NodeId) (s : State) : localTo n s (resetRole n s) := by
  refine ⟨fun k hk => ?_, by cases n <;> rfl, by cases n <;> rfl⟩
  cases n <;> cases k <;> simp_all [resetRole, sameRole]

theorem holdReset_local (n : NodeId) (s : State) : localTo n s (holdReset n s) :=
  localTo_trans (resetRole_local n s) (modNode_local _ _ _)

theorem releaseReset_local (n : NodeId) (s : State) : localTo n s (releaseReset n s) := by
  unfold releaseReset
  split
  · exact localTo_trans (resetRole_local n s) (modNode_local _ _ _)
  · exact localTo_refl _ _

/-- 10_state R44: an operation other than TXC touches the node it runs at alone. -/
theorem exec_local {i : Instr} {m : NodeId} {s t : State} (hm : homeNode i = some m) (h : exec i s = .next t) :
    localTo m s t := by
  cases i <;> cases hm <;> cases h
  case send => exact handlerFrame_local (send_frame _ _ _ s)
  case rxa => exact modNode_local _ _ s
  case rxdDrop => exact modNode_local _ _ s
  case rxdAcc => exact rxdAcc_local _ _ s
  case rxh => exact rxh_local _ s
  case dspWake => exact localTo_trans (modNode_local .dsp _ s) (modNode_local .dsp _ _)
  case dspSpeed | dspModeT =>
    exact localTo_trans (modDisp_local _ s) (localTo_trans (modNode_local .dsp _ _) (modNode_local .dsp _ _))
  case dspModeNt =>
    exact localTo_trans (localTo_trans (modNode_local .dsp _ s) (modNode_local .dsp _ _))
      (handlerFrame_local (bcastStart_frame _ _))
  case dspTDel | dspRunSpeed => exact localTo_trans (modDisp_local _ s) (modNode_local .dsp _ _)
  case dspTOk => exact handlerFrame_local (dspTOk_frame s)
  case dspTDigit => exact handlerFrame_local (dspTDigit_frame _ s)
  case dspRunReset =>
    exact localTo_trans (handlerFrame_local (handlerFrame_trans (ctStop_frame s) (dspReinit_frame _)))
      (modNode_local .dsp _ _)
  case dspEndReset => exact localTo_trans (handlerFrame_local (dspReinit_frame s)) (modNode_local .dsp _ _)
  case dspTick => exact handlerFrame_local (dspTick_frame s)
  case dspSec => exact handlerFrame_local (dspSec_frame _ _ s)
  case dspBar => exact modNode_local .dsp _ s
  case dspPer => exact modNode_local .dsp _ s
  case dspFin => exact handlerFrame_local (dspFin_frame s)
  case ctStart | ctStop => exact modDisp_local _ s
  case ctTick => exact handlerFrame_local (ctTick_frame s)
  case ctSecond => exact handlerFrame_local (ctSecond_frame s)
  case ctProgress => exact handlerFrame_local (ctProgress_frame _ s)
  case dcStart | dcSpeed => exact handlerFrame_local (modActr_frame _ s)
  case dcStop => exact handlerFrame_local (dcStop_frame s)
  case dcTick | actTick => exact handlerFrame_local (dcTick_frame s)
  case inpWake | inpSpeed | inpModeNt | inpModeT | inpTOk =>
    exact localTo_trans (modNode_local .inp _ s) (modNode_local .inp _ _)
  case inpTDel | inpTDigit => exact modNode_local .inp _ s
  case inpRunDigit => exact localTo_trans (modNode_local .inp _ s) (modNode_local .inp _ _)
  case inpRunReset =>
    exact handlerFrame_local (handlerFrame_trans (handlerFrame_trans (handlerFrame_trans (send_frame _ _ _ s)
      (send_frame _ _ _ _)) (send_frame _ _ _ _)) (setSt_frame _ _ _))
  case indReset => exact handlerFrame_local (indReset_frame s)
  case indStartNt | indStartWt => exact handlerFrame_local (indStart_frame _ s)
  case indProg | indProgAny => exact handlerFrame_local (indAdvance_frame s)
  case indEnded => exact localTo_trans (modNode_local .ind _ s) (handlerFrame_local (modIndr_frame _ _))
  case indBlink => exact handlerFrame_local (indBlink_frame s)
  case indFrame => exact handlerFrame_local (indFrame_frame s)
  case actReset =>
    exact handlerFrame_local (handlerFrame_trans (handlerFrame_trans (handlerFrame_trans (dcStop_frame s)
      (setSt_frame _ _ _)) (modActr_frame _ _)) (setDone_frame _ _))
  case actEnded =>
    exact handlerFrame_local (handlerFrame_trans (handlerFrame_trans (dcStop_frame s) (setSt_frame _ _ _))
      (setDone_frame _ _))
  case actSpeed => exact handlerFrame_local (actSpeed_frame _ s)
  case dspIgn | inpIgn | inpRx | indIgn | actIgn => exact localTo_refl _ s

/-- Every operation a key selects runs at the input node (30_encoding R87). -/
theorem homeNode_keyInstr (cfg : Cfg) (st : SessionState) (k : Key) :
    homeNode (keyInstr cfg st k) = some .inp := by
  unfold keyInstr
  cases selectKey cfg st k <;> rfl

/-! ## The slot, node by node -/

/-- TXC that answers a next state (40_framer R112): everything it can do. -/
theorem execTxc_cases {n : NodeId} {s t : State} (h : execTxc n s = .next t) :
    ((s.node n).txq = [] ∧ t = s)
    ∨ ∃ c rest, (s.node n).txq = c :: rest ∧ othersTransmit n s = false ∧ t = slot n c rest s := by
  unfold execTxc at h
  split at h
  · next hq => cases h; exact .inl ⟨hq, rfl⟩
  · next c rest hq =>
    split at h
    · cases h
    · next ho => cases h; exact .inr ⟨c, rest, hq, by simpa using ho, rfl⟩

/-- A slot leaves every node but the sender as its own reception does (40_framer R112, R113). -/
theorem slot_agrees_other {m n : NodeId} (hmn : m ≠ n) (c : Char9) (rest : List Char9) (s : State) :
    agreesAt m (rxChar m c s) (slot n c rest s) := by
  have hpin : agreesAt m s (setTxEn n true s) := agreesAt_of_local hmn (modNode_local n _ s)
  have hdeliver := deliver_agrees n m c (setTxEn n true s)
  rw [if_neg hmn] at hdeliver
  have hend : localTo n (deliver n c (setTxEn n true s)) (slot n c rest s) := by
    have hsent : localTo n (deliver n c (setTxEn n true s))
        (setTxq n rest (setTxEn n false (deliver n c (setTxEn n true s)))) :=
      localTo_trans (modNode_local n _ _) (modNode_local n _ _)
    simp only [slot]
    split
    · exact localTo_trans hsent (idleEntry_local n _)
    · exact hsent
  exact agreesAt_trans (agreesAt_trans (rxChar_agrees m c hpin) hdeliver) (agreesAt_of_local hmn hend)

/-- A slot at its sender: the head leaves the queue, and an emptied queue enters idle (40_framer R112, R118). -/
theorem slot_agrees_own (n : NodeId) (c : Char9) (rest : List Char9) (s : State) :
    ∃ u, agreesAt n (modNode n (dropHead rest) s) u ∧ slot n c rest s = if rest = [] then idleEntry n u else u := by
  have hdeliver := deliver_agrees n n c (setTxEn n true s)
  rw [if_pos rfl] at hdeliver
  have hdrop : setTxq n rest (setTxEn n false (setTxEn n true s)) = modNode n (dropHead rest) s := by
    cases n <;> rfl
  exact ⟨_, hdrop ▸ modNode_agrees _ (modNode_agrees _ hdeliver), rfl⟩

theorem slot_nodeStep {n : NodeId} {c : Char9} {rest : List Char9} {s : State} (hq : (s.node n).txq = c :: rest)
    (m : NodeId) : NodeStep m (.ev (.slot n)) s (slot n c rest s) := by
  by_cases hmn : m = n
  · subst hmn
    obtain ⟨u, hu, ht⟩ := slot_agrees_own m c rest s
    exact .sends c rest hq hu ht
  · exact .hears c (by simpa using Ne.symm hmn) (slot_agrees_other hmn c rest s)

/-- Two overlapping slots never answer a next state but where nothing overlaps (40_framer R122). -/
theorem overlapSlots_next {a b : NodeId} {s t : State} (h : overlapSlots a b s = .next t) : t = s := by
  unfold overlapSlots at h
  split at h
  · cases h; rfl
  · next hg =>
    simp only [Bool.or_eq_true, decide_eq_true_eq, not_or] at hg
    obtain ⟨⟨hab, -⟩, hb⟩ := hg
    have hqueue : ((setTxEn a true s).node b).txq = (s.node b).txq := by
      rw [setTxEn, modNode_node_ne (Ne.symm hab)]
    obtain ⟨hempty, -⟩ | ⟨c, rest, -, hothers, -⟩ := execTxc_cases h
    · exact absurd (idle_iff.mpr (hqueue ▸ hempty)) hb
    · have henabled : othersTransmit b (setTxEn a true s) = true :=
        List.any_eq_true.mpr ⟨a, by cases a <;> decide, by simp [hab, setTxEn]⟩
      rw [hothers] at henabled
      cases henabled

/-! ## The step, node by node -/

/-- What runs at node `k` alone touches no other node. -/
theorem nodeStep_of_local {k : NodeId} {i : Input} {s t : State} (hi : ∀ n, i ≠ .ev (.slot n))
    (hl : localTo k s t) (hk : NodeStep k i s t) (m : NodeId) : NodeStep m i s t := by
  by_cases hm : m = k
  · exact hm ▸ hk
  · exact .untouched (fun h => absurd h (hi m)) (agreesAt_of_local hm hl)

theorem nodeStep_refl {i : Input} (hi : ∀ n, i ≠ .ev (.slot n)) (s : State) (m : NodeId) : NodeStep m i s s :=
  .untouched (fun h => absurd h (hi m)) (agreesAt_refl m s)

/-- A handler starts at an idle node alone (60_exceptions R257). -/
theorem idle_of_guard {rst : Bool} {n : NodeId} {s : State} (h : ¬ (rst || !s.idle n) = true) :
    s.idle n = true := by
  simp only [Bool.or_eq_true, Bool.not_eq_true', not_or, Bool.not_eq_false] at h
  exact h.2

/-- The operation an input selects, run (60_exceptions R257). -/
theorem exec_select_nodeStep {i : Input} {op : Instr} {s t : State} (hsel : select i s = some op)
    (h : exec op s = .next t) (m : NodeId) : NodeStep m i s t := by
  cases i with
  | ev e =>
    cases e <;> simp only [select, selectEvent] at hsel
    case slot n =>
      split at hsel <;> cases hsel
      next hg =>
      obtain ⟨hempty, -⟩ | ⟨c, rest, hq, -, rfl⟩ := execTxc_cases h
      · simp [idle_iff.mpr hempty] at hg
      · exact slot_nodeStep hq m
    case overlap => cases hsel
    case key k =>
      split at hsel <;> cases hsel
      next hg =>
      have hidle := idle_of_guard hg
      exact nodeStep_of_local (by simp) (exec_local (homeNode_keyInstr _ _ k) h) (.key k hidle h) m
    case ctTick =>
      split at hsel <;> cases hsel
      next hg =>
      have hidle := idle_of_guard hg
      cases h
      exact nodeStep_of_local (by simp) (handlerFrame_local (dspTick_frame s)) (.tick hidle) m
    case dcTick =>
      split at hsel <;> cases hsel
      cases h
      exact nodeStep_of_local (by simp) (handlerFrame_local (dcTick_frame s)) .duty m
    case blinkTick =>
      split at hsel <;> cases hsel
      cases h
      exact nodeStep_of_local (by simp) (handlerFrame_local (indBlink_frame s)) .blink m
    case frameTick =>
      split at hsel <;> cases hsel
      cases h
      exact nodeStep_of_local (by simp) (handlerFrame_local (indFrame_frame s)) .frame m
    case resetOn => cases hsel
    case resetOff => cases hsel
  | char k c =>
    simp only [select] at hsel
    split at hsel <;> cases hsel
    next hrst =>
    rw [Laws.exec_charInstr k c s (by simpa using hrst)] at h
    cases h
    exact nodeStep_of_local (by simp) (rxChar_local k c s) (.hears c (by simp) (agreesAt_refl k _)) m
  | byte k p =>
    simp only [select] at hsel
    split at hsel <;> cases hsel
    next hg =>
    have hidle := idle_of_guard hg
    rw [Laws.exec_payloadInstr k p s] at h
    cases h
    exact nodeStep_of_local (by simp) (rx_local k p s) (.accepts p hidle) m

/-- An input that selects no operation (60_exceptions R258). -/
theorem absorb_nodeStep {i : Input} {s t : State} (hsel : select i s = none) (h : absorb i s = .next t)
    (m : NodeId) : NodeStep m i s t := by
  cases i with
  | ev e =>
    cases e <;> simp only [absorb, absorbEvent] at h
    case slot n =>
      cases h
      have hg : (s.node n).rst = true ∨ s.idle n = true := by
        simpa [select, selectEvent, or_iff_not_imp_left] using hsel
      exact .untouched (by rintro ⟨⟩; exact hg) (agreesAt_refl m s)
    case overlap =>
      rw [overlapSlots_next h]
      exact nodeStep_refl (by simp) s m
    case ctTick =>
      split at h <;> cases h
      · exact nodeStep_refl (by simp) s m
      · next hrst =>
        have hbusy : s.idle .dsp = false := by simpa [select, selectEvent, hrst] using hsel
        exact nodeStep_of_local (by simp) (modDisp_local _ s) (.keepsTick hbusy) m
    case resetOn n =>
      cases h
      exact nodeStep_of_local (by simp) (holdReset_local n s) .held m
    case resetOff n =>
      cases h
      by_cases hrst : (s.node n).rst = true
      · exact nodeStep_of_local (by simp) (releaseReset_local n s) (.released hrst) m
      · rw [releaseReset, if_neg hrst]
        exact nodeStep_refl (by simp) s m
    all_goals
      cases h
      exact nodeStep_refl (by simp) s m
  | char k c =>
    cases h
    exact nodeStep_refl (by simp) s m
  | byte k p =>
    simp only [absorb] at h
    split at h <;> cases h
    · exact nodeStep_refl (by simp) s m
    · next hrst =>
      have hbusy : s.idle k = false := by simpa [select, hrst] using hsel
      exact nodeStep_of_local (by simp) (keepByte_local k p s) (.keeps p hbusy) m

/-- One step, seen at one node (60_exceptions R257, R258). -/
theorem step_nodeStep {s t : State} (h : step s = .next t) (m : NodeId) :
    NodeStep m (nextInput s).1 (nextInput s).2 t := by
  unfold step at h
  split at h
  · split at h
    · next hsel => exact exec_select_nodeStep hsel h m
    · next hsel => exact absorb_nodeStep hsel h m
  · cases h

/-- A step answers a next state under a well-formed `CFG` alone (U12). -/
theorem step_wf {s t : State} (h : step s = .next t) : s.cfg.wf = true := by
  unfold step at h
  split at h
  · next hw => exact hw
  · cases h

/-! ## `CFG` is constant (20_memory R75) -/

theorem nodeStep_cfg {m : NodeId} {i : Input} {s t : State} (h : NodeStep m i s t) : t.cfg = s.cfg := by
  cases h with
  | untouched _ h => exact agreesAt_cfg h
  | hears c _ h => exact (agreesAt_cfg h).trans (localTo_cfg (rxChar_local m c s))
  | @sends _ _ u _ c rest _ hu ht =>
    have hcfg : u.cfg = s.cfg := (agreesAt_cfg hu).trans (modNode_cfg ..)
    subst ht
    split
    · exact (localTo_cfg (idleEntry_local m u)).trans hcfg
    · exact hcfg
  | accepts p => exact localTo_cfg (rx_local m p s)
  | keeps p => exact localTo_cfg (keepByte_local m p s)
  | key k _ h => exact localTo_cfg (exec_local (homeNode_keyInstr _ _ k) h)
  | tick => exact localTo_cfg (handlerFrame_local (dspTick_frame s))
  | keepsTick => rfl
  | duty => exact localTo_cfg (handlerFrame_local (dcTick_frame s))
  | blink => exact localTo_cfg (handlerFrame_local (indBlink_frame s))
  | frame => exact localTo_cfg (handlerFrame_local (indFrame_frame s))
  | held => exact localTo_cfg (holdReset_local m s)
  | released => exact localTo_cfg (releaseReset_local m s)

/-- Settles O51: every operation is composed of operations that touch its own node alone, and what a step does at
a node leaves `CFG` as it was. -/
theorem operationsStayInTheirNode : Obligations.OperationsStayInTheirNode := by
  refine ⟨fun i s t m hm h => exec_local hm h, fun s t h => ?_⟩
  exact (nodeStep_cfg (step_nodeStep h .dsp)).trans (agreesAt_cfg (nextInput_agrees .dsp s))

end Sys2Proof.Machine
end

section
/-! SUPPORT. Proofs of family 10_state: the invariant of the four nodes, taken apart node by node, holds at reset
and is kept by everything a step can do at a node (10_state R22 to R26, R33, R36). -/

namespace Sys2Proof.Machine

/-! ## The queue: handlers append, never more than the longest burst (10_state R25) -/

theorem send_txq (n : NodeId) (a p : Byte) (s : State) :
    ((send n a p s).node n).txq = (s.node n).txq ++ message a p := by
  simp [send]

/-- `t` is `s` with at most `k` characters appended to the queue of node `n`. -/
def Appends (n : NodeId) (k : Nat) (s t : State) : Prop :=
  ∃ new, (t.node n).txq = (s.node n).txq ++ new ∧ new.length ≤ k

theorem appends_of_eq {n : NodeId} {s t : State} (h : (t.node n).txq = (s.node n).txq) (k : Nat) :
    Appends n k s t :=
  ⟨[], by simp [h], Nat.zero_le k⟩

theorem appends_trans {n : NodeId} {j k : Nat} {s t u : State} (h1 : Appends n j s t) (h2 : Appends n k t u) :
    Appends n (j + k) s u := by
  obtain ⟨new1, e1, l1⟩ := h1
  obtain ⟨new2, e2, l2⟩ := h2
  exact ⟨new1 ++ new2, by rw [e2, e1, List.append_assoc], by rw [List.length_append]; omega⟩

theorem send_appends (n : NodeId) (a p : Byte) (s : State) : Appends n 2 s (send n a p s) :=
  ⟨message a p, send_txq n a p s, le_refl 2⟩

/-- What a handler appends at an idle node is all there is in its queue. -/
theorem length_of_appends {n : NodeId} {k : Nat} {s t : State} (h : Appends n k s t) (hidle : s.idle n = true) :
    (t.node n).txq.length ≤ k := by
  obtain ⟨new, he, hl⟩ := h
  rwa [he, idle_iff.mp hidle, List.nil_append]

theorem bcastStart_appends (c : Byte) (s : State) : Appends .dsp 4 s (bcastStart c s) :=
  appends_trans (send_appends _ _ _ s) (send_appends _ _ _ _)

theorem bcastEnded_appends (s : State) : Appends .dsp 8 s (bcastEnded s) :=
  appends_trans (appends_trans (send_appends _ _ _ s) (send_appends _ _ _ _))
    (appends_trans (send_appends _ _ _ _) (send_appends _ _ _ _))

/-- The display's receive handler sends two messages at most (41_display R148). -/
theorem dspRx_appends (p : Byte) (s : State) : Appends .dsp 4 s (dspRx p s) := by
  unfold dspRx
  cases selectDsp s.cfg s.dsp.st p with
  | modeNt d => exact bcastStart_appends _ _
  | tOk => exact bcastStart_appends _ _
  | tDigit d =>
    simp only [dspTDigit]
    split <;> exact appends_of_eq rfl 4
  | _ => exact appends_of_eq rfl 4

theorem ctProgress_dsp (k : Progress) (s : State) : (ctProgress k s).dsp = s.dsp := by
  obtain ⟨-, he⟩ | ⟨-, he⟩ := ctProgress_cases k s <;> rw [he] <;> rfl

theorem ctSecond_dsp (s : State) : (ctSecond s).dsp = s.dsp := by
  unfold ctSecond
  split
  · rfl
  · exact (ctProgress_dsp _ _).trans (ctProgress_dsp _ _)

theorem ctTick_dsp (s : State) : (ctTick s).dsp = s.dsp := by
  unfold ctTick
  split
  · simp only []
    split
    · exact ctSecond_dsp _
    · rfl
  · rfl

/-- DSP.TICK (41_display R143): everything it can do after CT.TICK. -/
theorem dspTick_cases (s : State) :
    dspTick s = dspFin (ctTick s) ∨ (∃ bar per, dspTick s = dspSec bar per (ctTick s)) ∨ dspTick s = ctTick s := by
  simp only [dspTick]
  split
  · exact .inl rfl
  · exact .inr (.inl ⟨_, _, rfl⟩)
  · exact .inr (.inr rfl)
  · exact .inr (.inr rfl)

theorem dspSec_appends (bar per : Bool) (s : State) : Appends .dsp 2 s (dspSec bar per s) := by
  unfold dspSec
  cases per
  · cases bar <;> exact appends_of_eq rfl 2
  · cases bar <;> exact ⟨_, rfl, le_refl 2⟩

/-- The display's tick handler sends four messages at most (41_display R149). -/
theorem dspTick_appends (s : State) : Appends .dsp 8 s (dspTick s) := by
  have htick : Appends .dsp 0 s (ctTick s) := appends_of_eq (by simp [ctTick_dsp]) 0
  obtain he | ⟨bar, per, he⟩ | he := dspTick_cases s
  · have hfin : Appends .dsp 8 (ctTick s) (dspFin (ctTick s)) := bcastEnded_appends _
    rw [he]
    simpa using appends_trans htick hfin
  · obtain ⟨new, hq, hl⟩ := appends_trans htick (dspSec_appends bar per _)
    exact ⟨new, by rw [he, hq], by omega⟩
  · rw [he]
    exact appends_of_eq (by simp [ctTick_dsp]) 8

/-- The passive nodes' receive handlers never send (10_state R25). -/
theorem indRx_txq (p : Byte) (s : State) : (indRx p s).ind.txq = s.ind.txq := by
  unfold indRx
  cases selectInd s.cfg s.ind.st p with
  | reset => simp [indReset, Laws.clearFrame_eq, emit, setSt]
  | _ => rfl

theorem actRx_txq (p : Byte) (s : State) : (actRx p s).act.txq = s.act.txq := by
  unfold actRx
  cases selectAct s.cfg s.act.st p with
  | speed d =>
    simp only [actSpeed]
    split <;> rfl
  | _ => simp [actReset, actEnded, actIgn, dcStop, Laws.setDone_eq, Laws.setActEn_eq, setSt]

theorem dcTick_txq (s : State) : (dcTick s).act.txq = s.act.txq := by
  unfold dcTick
  split
  · simp [Laws.setActEn_eq]
  · rfl

theorem indBlink_txq (s : State) : (indBlink s).ind.txq = s.ind.txq := by
  unfold indBlink
  split <;> rfl

theorem indFrame_txq (s : State) : (indFrame s).ind.txq = s.ind.txq := by
  unfold indFrame
  split <;> rfl

/-- A key operation sends three messages at most (44_input R199), never ends the session (R202), and leaves the rest
of the node alone. -/
theorem exec_keyInstr {k : Key} {s t : State} (h : exec (keyInstr s.cfg s.inp.st k) s = .next t) :
    Appends .inp 6 s t ∧ handlerFrame .inp s t ∧ (InputInv s → InputInv t) := by
  unfold keyInstr at h
  generalize selectKey s.cfg s.inp.st k = op at h
  cases op <;> cases h
  case wake | speed | modeNt | modeT | tOk =>
    exact ⟨⟨_, rfl, by simp [message]⟩, handlerFrame_trans (send_frame _ _ _ s) (setSt_frame _ _ _),
      fun _ => by simp [InputInv, inpWake, inpSpeed, inpModeNt, inpModeT, inpTOk, setSt]⟩
  case tDel | tDigit => exact ⟨⟨_, rfl, by simp [message]⟩, send_frame _ _ _ s, id⟩
  case runDigit =>
    exact ⟨appends_trans (k := 4) (send_appends _ _ _ s) ⟨_, rfl, by simp [message]⟩,
      handlerFrame_trans (send_frame _ _ _ s) (send_frame _ _ _ _), id⟩
  case runReset =>
    exact ⟨appends_trans (j := 4) (k := 2) (appends_trans (send_appends _ _ _ s) (send_appends _ _ _ _))
        ⟨_, rfl, le_refl 2⟩,
      handlerFrame_trans (handlerFrame_trans (handlerFrame_trans (send_frame _ _ _ s) (send_frame _ _ _ _))
        (send_frame _ _ _ _)) (setSt_frame _ _ _),
      fun _ => by simp [InputInv, inpRunReset, setSt]⟩
  case ign => exact ⟨appends_of_eq rfl 6, handlerFrame_refl _ s, id⟩

/-! ## The invariant of one node -/

/-- The invariant of a node's role, and the longest queue it can have (10_state R22, R25, R33, R36). -/
def RoleInv (m : NodeId) (s : State) : Prop :=
  match m with
  | .inp => InputInv s ∧ s.inp.txq.length ≤ 6
  | .dsp => DisplayInv s ∧ s.dsp.txq.length ≤ 8
  | .ind => IndicatorInv s ∧ s.ind.txq = []
  | .act => ActuatorInv s ∧ s.act.txq = []

/-- No byte and no tick waits at the node (10_state R26, R29). -/
def NothingPending (m : NodeId) (s : State) : Prop :=
  (s.node m).rxPend = false ∧ (m = .dsp → s.disp.ctPend = false)

/-- What `Inv` says of one node. -/
def NodeInv (m : NodeId) (s : State) : Prop :=
  RoleInv m s ∧ (s.node m).txEn = false ∧ (s.idle m = true → NothingPending m s)

theorem inv_iff_nodeInv (s : State) : Inv s ↔ ∀ m, NodeInv m s := by
  constructor
  · rintro ⟨hdsp, hinp, hind, hact, htx, hiq, haq, hnq, hdq, hpend, htick⟩ m
    refine ⟨?_, htx m, fun hidle => ⟨hpend m (idle_iff.mp hidle), ?_⟩⟩
    · cases m with
      | inp => exact ⟨hinp, hnq⟩
      | dsp => exact ⟨hdsp, hdq⟩
      | ind => exact ⟨hind, hiq⟩
      | act => exact ⟨hact, haq⟩
    · rintro rfl
      exact htick (idle_iff.mp hidle)
  · intro h
    obtain ⟨⟨hinp, hnq⟩, -⟩ := h .inp
    obtain ⟨⟨hdsp, hdq⟩, -, hpendDsp⟩ := h .dsp
    obtain ⟨⟨hind, hiq⟩, -⟩ := h .ind
    obtain ⟨⟨hact, haq⟩, -⟩ := h .act
    refine ⟨hdsp, hinp, hind, hact, fun n => ?_, hiq, haq, hnq, hdq, fun n hq => ?_, fun hq => ?_⟩
    · obtain ⟨-, htx, -⟩ := h n
      exact htx
    · obtain ⟨-, -, hpend⟩ := h n
      obtain ⟨hbyte, -⟩ := hpend (idle_iff.mpr hq)
      exact hbyte
    · obtain ⟨-, htick⟩ := hpendDsp (idle_iff.mpr hq)
      exact htick rfl

theorem roleInv_congr {m : NodeId} {s t : State} (h : agreesAt m s t) (hs : RoleInv m s) : RoleInv m t := by
  obtain ⟨hn, hr, hc⟩ := h
  cases m <;> simp only [node_inp, node_dsp, node_ind, node_act, sameRole] at hn hr <;>
    simpa only [RoleInv, DisplayInv, InputInv, IndicatorInv, ActuatorInv, hn, hr, hc] using hs

theorem nodeInv_congr {m : NodeId} {s t : State} (h : agreesAt m s t) (hs : NodeInv m s) : NodeInv m t := by
  obtain ⟨hrole, htx, hpend⟩ := hs
  refine ⟨roleInv_congr h hrole, ?_, ?_⟩
  · obtain ⟨hn, -, -⟩ := h
    rwa [hn]
  · obtain ⟨hn, hr, -⟩ := h
    intro hidle
    obtain ⟨hbyte, htick⟩ := hpend (by rwa [State.idle, hn] at hidle)
    refine ⟨by rw [hn]; exact hbyte, ?_⟩
    rintro rfl
    rw [show t.disp = s.disp from hr]
    exact htick rfl

/-- A change of a node's record that keeps the session state and the queue keeps the role's invariant. -/
theorem modNode_roleInv {m : NodeId} {f : Node → Node} {s : State} (hst : (f (s.node m)).st = (s.node m).st)
    (hq : (f (s.node m)).txq = (s.node m).txq) (h : RoleInv m s) : RoleInv m (modNode m f s) := by
  cases m <;> simp only [node_inp, node_dsp, node_ind, node_act] at hst hq <;>
    simpa only [RoleInv, DisplayInv, InputInv, IndicatorInv, ActuatorInv, modNode_cfg, modNode_disp, modNode_indr,
      modNode_actr, modNode_inp_inp, modNode_dsp_dsp, modNode_ind_ind, modNode_act_act, hst, hq] using h

/-- A change of a node's filter, or of the pending byte of a busy node, keeps the node's invariant. -/
theorem modNode_nodeInv {m : NodeId} {f : Node → Node} {s : State} (hst : (f (s.node m)).st = (s.node m).st)
    (hq : (f (s.node m)).txq = (s.node m).txq) (htx : (f (s.node m)).txEn = (s.node m).txEn)
    (hp : s.idle m = true → (f (s.node m)).rxPend = (s.node m).rxPend) (h : NodeInv m s) :
    NodeInv m (modNode m f s) := by
  obtain ⟨hrole, htxs, hpend⟩ := h
  refine ⟨modNode_roleInv hst hq hrole, by rw [modNode_node_same, htx, htxs], fun hidle => ?_⟩
  have hidles : s.idle m = true := by rwa [State.idle, modNode_node_same, hq] at hidle
  obtain ⟨hbyte, htick⟩ := hpend hidles
  exact ⟨by rw [modNode_node_same, hp hidles, hbyte], by rwa [modNode_disp]⟩

/-- What a handler does to a node that had nothing pending leaves nothing pending. -/
theorem nodeInv_of_frame {m : NodeId} {s t : State} (hf : handlerFrame m s t) (hidle : s.idle m = true)
    (hs : NodeInv m s) (ht : RoleInv m t) : NodeInv m t := by
  obtain ⟨-, -, -, -, -, -, htx, hbyte, -, htick⟩ := hf
  obtain ⟨-, htxs, hpend⟩ := hs
  obtain ⟨hbytes, hticks⟩ := hpend hidle
  exact ⟨ht, htx.trans htxs, fun _ => ⟨hbyte.trans hbytes, fun hm => htick.trans (hticks hm)⟩⟩

/-! ## Every handler keeps it -/

/-- A receive handler at an idle node keeps the invariant of its role. -/
theorem rx_roleInv {m : NodeId} {s : State} (p : Byte) (hw : s.cfg.wf = true) (hidle : s.idle m = true)
    (h : RoleInv m s) : RoleInv m (rx m p s) := by
  cases m with
  | inp => exact h
  | dsp => exact ⟨dspRx_displayInv p hw h.1, (length_of_appends (dspRx_appends p s) hidle).trans (by decide)⟩
  | ind => exact ⟨indRx_indicatorInv p h.1, (indRx_txq p s).trans h.2⟩
  | act => exact ⟨actRx_actuatorInv p h.1, (actRx_txq p s).trans h.2⟩

theorem dspTick_roleInv {s : State} (hidle : s.idle .dsp = true) (h : RoleInv .dsp s) : RoleInv .dsp (dspTick s) :=
  ⟨dspTick_displayInv h.1, length_of_appends (dspTick_appends s) hidle⟩

/-- A receive handler at an idle node keeps the node's invariant (40_framer R116). -/
theorem rx_nodeInv {m : NodeId} {s : State} (p : Byte) (hw : s.cfg.wf = true) (hidle : s.idle m = true)
    (h : NodeInv m s) : NodeInv m (rx m p s) := by
  obtain ⟨hrole, -⟩ := id h
  exact nodeInv_of_frame (rx_frame m p s) hidle h (rx_roleInv p hw hidle hrole)

/-- A byte that waits at a busy node keeps the node's invariant. -/
theorem keepByte_nodeInv {m : NodeId} {s : State} (b : Byte) (hbusy : s.idle m = false) (h : NodeInv m s) :
    NodeInv m (keepByte m b s) := by
  unfold keepByte overrun
  split
  · split
    · exact h
    · exact modNode_nodeInv rfl rfl rfl (fun _ => rfl) h
  · have hbuf : NodeInv m (setRxBuf m b s) := modNode_nodeInv rfl rfl rfl (fun _ => rfl) h
    refine modNode_nodeInv rfl rfl rfl (fun hidle => ?_) hbuf
    have hidles : s.idle m = true := by simpa [State.idle, setRxBuf] using hidle
    rw [hbusy] at hidles
    cases hidles

theorem acceptByte_nodeInv {m : NodeId} {s : State} (p : Byte) (hw : s.cfg.wf = true) (h : NodeInv m s) :
    NodeInv m (acceptByte m p s) := by
  unfold acceptByte
  split
  · next hidle => exact rx_nodeInv p hw hidle h
  · next hbusy => exact keepByte_nodeInv p (by simpa using hbusy) h

/-- A character at a node that does not send keeps the node's invariant (40_framer R113). -/
theorem rxChar_nodeInv {m : NodeId} {s : State} (c : Char9) (hw : s.cfg.wf = true) (h : NodeInv m s) :
    NodeInv m (rxChar m c s) := by
  have hfilter : ∀ v, NodeInv m (setFilter m v s) := fun v => modNode_nodeInv rfl rfl rfl (fun _ => rfl) h
  unfold rxChar
  split
  · exact h
  · split
    · exact hfilter _
    · split
      · exact hfilter _
      · exact acceptByte_nodeInv _ (by simpa [setFilter] using hw) (hfilter _)

/-! ## Idle entry (40_framer R118) -/

theorem setRxPend_roleInv {m : NodeId} {s : State} (v : Bool) (h : RoleInv m s) : RoleInv m (setRxPend m v s) :=
  modNode_roleInv rfl rfl h

theorem takeByte_of_busy {n : NodeId} {s : State} (h : s.idle n = false) : takeByte n s = s := by
  simp [takeByte, h]

theorem takeTick_of_busy {s : State} (h : s.idle .dsp = false) : takeTick s = s := by
  simp [takeTick, h]

/-- What the handling of the pending byte does to the framer's registers of an idle node. -/
theorem takeByte_pins {n : NodeId} {s : State} (hidle : s.idle n = true) :
    ((takeByte n s).node n).txEn = (s.node n).txEn ∧ ((takeByte n s).node n).rxPend = false
    ∧ (takeByte n s).disp.ctPend = s.disp.ctPend := by
  unfold takeByte
  split
  · obtain ⟨-, -, -, -, -, -, htx, hbyte, -, htick⟩ := rx_frame n (s.node n).rxBuf (setRxPend n false s)
    exact ⟨htx.trans (by simp [setRxPend]), hbyte.trans (by simp [setRxPend]), htick.trans (by simp [setRxPend])⟩
  · next hg => exact ⟨rfl, by simpa [hidle] using hg, rfl⟩

/-- What the handling of the pending tick does to the framer's registers of an idle display. -/
theorem takeTick_pins {s : State} (hidle : s.idle .dsp = true) :
    (takeTick s).dsp.txEn = s.dsp.txEn ∧ (takeTick s).dsp.rxPend = s.dsp.rxPend
    ∧ (takeTick s).disp.ctPend = false := by
  unfold takeTick
  split
  · obtain ⟨-, -, -, -, -, -, htx, hbyte, -, htick⟩ := dspTick_frame (modDisp (fun d => { d with ctPend := false }) s)
    exact ⟨htx, hbyte, htick⟩
  · next hg => exact ⟨rfl, rfl, by simpa [hidle] using hg⟩

theorem takeByte_roleInv {n : NodeId} {s : State} (hw : s.cfg.wf = true) (h : RoleInv n s) :
    RoleInv n (takeByte n s) := by
  unfold takeByte
  split
  · next hg =>
    have hidle : s.idle n = true := (Bool.and_eq_true_iff.mp hg).1
    exact rx_roleInv _ (by simpa [setRxPend] using hw) (by simpa [State.idle, setRxPend] using hidle)
      (setRxPend_roleInv false h)
  · exact h

theorem takeTick_roleInv {s : State} (h : RoleInv .dsp s) : RoleInv .dsp (takeTick s) := by
  unfold takeTick
  split
  · next hg =>
    have hidle : s.idle .dsp = true := (Bool.and_eq_true_iff.mp hg).1
    exact dspTick_roleInv (by simpa [State.idle] using hidle) h
  · exact h

/-- IDLE_ENTRY at the display takes the pending byte and the pending tick in one of the two orders. -/
theorem idleEntry_dsp_cases (s : State) :
    ∃ k, idleEntry .dsp s = takeTick (takeByte .dsp { s with free := k })
      ∨ idleEntry .dsp s = takeByte .dsp (takeTick { s with free := k }) := by
  simp only [idleEntry]
  split
  · refine ⟨s.free + 1, ?_⟩
    cases Config.freeChoice s.free
    · exact .inr rfl
    · exact .inl rfl
  · exact ⟨s.free, .inl rfl⟩

/-- A node that has just emptied its queue and handled its pending byte. -/
theorem takeByte_nodeInv {n : NodeId} {s : State} (hn : n ≠ .dsp) (hw : s.cfg.wf = true) (hidle : s.idle n = true)
    (htx : (s.node n).txEn = false) (h : RoleInv n s) : NodeInv n (takeByte n s) := by
  obtain ⟨htx', hbyte, -⟩ := takeByte_pins hidle
  exact ⟨takeByte_roleInv hw h, htx'.trans htx, fun _ => ⟨hbyte, fun hd => absurd hd hn⟩⟩

theorem takeTick_takeByte_nodeInv {s : State} (hw : s.cfg.wf = true) (hidle : s.idle .dsp = true)
    (htx : s.dsp.txEn = false) (h : RoleInv .dsp s) : NodeInv .dsp (takeTick (takeByte .dsp s)) := by
  obtain ⟨htx1, hbyte1, -⟩ := takeByte_pins hidle
  have hrole := takeTick_roleInv (takeByte_roleInv hw h)
  cases hmid : (takeByte .dsp s).idle .dsp with
  | true =>
    obtain ⟨htx2, hbyte2, htick2⟩ := takeTick_pins hmid
    exact ⟨hrole, htx2.trans (htx1.trans htx), fun _ => ⟨hbyte2.trans hbyte1, fun _ => htick2⟩⟩
  | false =>
    rw [takeTick_of_busy hmid] at hrole ⊢
    exact ⟨hrole, htx1.trans htx, fun hend => absurd hend (by simp [hmid])⟩

theorem takeByte_takeTick_nodeInv {s : State} (hw : s.cfg.wf = true) (hidle : s.idle .dsp = true)
    (htx : s.dsp.txEn = false) (h : RoleInv .dsp s) : NodeInv .dsp (takeByte .dsp (takeTick s)) := by
  obtain ⟨htx1, -, htick1⟩ := takeTick_pins hidle
  have hw1 : (takeTick s).cfg.wf = true := by rwa [localTo_cfg (takeTick_local s)]
  have hrole := takeByte_roleInv hw1 (takeTick_roleInv h)
  cases hmid : (takeTick s).idle .dsp with
  | true =>
    obtain ⟨htx2, hbyte2, htick2⟩ := takeByte_pins hmid
    exact ⟨hrole, htx2.trans (htx1.trans htx), fun _ => ⟨hbyte2, fun _ => htick2.trans htick1⟩⟩
  | false =>
    rw [takeByte_of_busy hmid] at hrole ⊢
    exact ⟨hrole, htx1.trans htx, fun hend => absurd hend (by simp [hmid])⟩

/-- At the instant its queue becomes empty, a node handles what is pending (40_framer R118). -/
theorem idleEntry_nodeInv {n : NodeId} {s : State} (hw : s.cfg.wf = true) (hidle : s.idle n = true)
    (htx : (s.node n).txEn = false) (h : RoleInv n s) : NodeInv n (idleEntry n s) := by
  cases n with
  | inp => exact takeByte_nodeInv (by decide) hw hidle htx h
  | ind => exact takeByte_nodeInv (by decide) hw hidle htx h
  | act => exact takeByte_nodeInv (by decide) hw hidle htx h
  | dsp =>
    obtain ⟨k, he | he⟩ := idleEntry_dsp_cases s <;> rw [he]
    · exact takeTick_takeByte_nodeInv hw hidle htx h
    · exact takeByte_takeTick_nodeInv hw hidle htx h

/-! ## Power-on reset, and the step -/

/-- The reset values of 10_state R58 meet a node's invariant. -/
theorem nodeInv_reset (m : NodeId) (x : Node) (s : State) (hx : x = { Node.reset x.out with rst := x.rst }) :
    NodeInv m (modNode m (fun _ => x) (resetRole m s)) := by
  rw [hx]
  refine ⟨?_, by simp [Node.reset], fun _ => ⟨by simp [Node.reset], ?_⟩⟩
  · cases m <;>
      simp [RoleInv, InputInv, DisplayInv, DisplayRanges, IndicatorInv, ActuatorInv, Node.reset, resetRole,
        DisplayRegs.reset, IndicatorRegs.reset, ActuatorRegs.reset]
  · rintro rfl
    rfl

/-- A slot of its own takes the head of a node's queue and keeps the invariant of its role. -/
theorem dropHead_roleInv {m : NodeId} {s : State} {c : Char9} {rest : List Char9} (hq : (s.node m).txq = c :: rest)
    (h : RoleInv m s) : RoleInv m (modNode m (dropHead rest) s) := by
  cases m <;> simp only [node_inp, node_dsp, node_ind, node_act] at hq <;> obtain ⟨hinv, hlen⟩ := h
  case inp | dsp =>
    rw [hq, List.length_cons] at hlen
    exact ⟨hinv, (Nat.le_succ _).trans hlen⟩
  case ind | act =>
    rw [hq] at hlen
    cases hlen

/-- The sender after its slot, idle entry included, keeps its invariant (40_framer R112, R118). -/
theorem sends_nodeInv {m : NodeId} {s u : State} {c : Char9} {rest : List Char9} (hw : s.cfg.wf = true)
    (hq : (s.node m).txq = c :: rest) (hu : agreesAt m (modNode m (dropHead rest) s) u) (h : RoleInv m s) :
    NodeInv m (if rest = [] then idleEntry m u else u) := by
  have hrole : RoleInv m u := roleInv_congr hu (dropHead_roleInv hq h)
  have hwu : u.cfg.wf = true := by rwa [agreesAt_cfg hu, modNode_cfg]
  obtain ⟨hnode, -, -⟩ := hu
  rw [modNode_node_same] at hnode
  have htx : (u.node m).txEn = false := by rw [hnode]; rfl
  have hidle : u.idle m = true ↔ rest = [] := by rw [idle_iff, hnode]; rfl
  split
  · next hrest => exact idleEntry_nodeInv hwu (hidle.mpr hrest) htx hrole
  · next hrest => exact ⟨hrole, htx, fun hend => absurd (hidle.mp hend) hrest⟩

/-- Everything a step can do at a node keeps the node's invariant. -/
theorem nodeStep_nodeInv {m : NodeId} {i : Input} {s t : State} (hw : s.cfg.wf = true) (h : NodeStep m i s t)
    (hs : NodeInv m s) : NodeInv m t := by
  obtain ⟨hrole, htx, -⟩ := id hs
  cases h with
  | untouched _ h => exact nodeInv_congr h hs
  | hears c _ h => exact nodeInv_congr h (rxChar_nodeInv c hw hs)
  | sends c rest hq hu ht => exact ht ▸ sends_nodeInv hw hq hu hrole
  | accepts p hidle => exact rx_nodeInv p hw hidle hs
  | keeps p hbusy => exact keepByte_nodeInv p hbusy hs
  | key k hidle h =>
    obtain ⟨happ, hframe, hkeeps⟩ := exec_keyInstr h
    obtain ⟨hinv, -⟩ := hrole
    exact nodeInv_of_frame hframe hidle hs ⟨hkeeps hinv, length_of_appends happ hidle⟩
  | tick hidle => exact nodeInv_of_frame (dspTick_frame s) hidle hs (dspTick_roleInv hidle hrole)
  | keepsTick hbusy =>
    exact ⟨hrole, htx, fun hidle => absurd hidle (by simpa [State.idle, keepTick] using hbusy)⟩
  | duty =>
    obtain ⟨hinv, hq⟩ := hrole
    exact nodeInv_of_frame (dcTick_frame s) (idle_iff.mpr hq) hs ⟨dcTick_actuatorInv hinv, (dcTick_txq s).trans hq⟩
  | blink =>
    obtain ⟨hinv, hq⟩ := hrole
    exact nodeInv_of_frame (indBlink_frame s) (idle_iff.mpr hq) hs
      ⟨indBlink_indicatorInv hinv, (indBlink_txq s).trans hq⟩
  | frame =>
    obtain ⟨hinv, hq⟩ := hrole
    exact nodeInv_of_frame (indFrame_frame s) (idle_iff.mpr hq) hs
      ⟨indFrame_indicatorInv hinv, (indFrame_txq s).trans hq⟩
  | held => exact nodeInv_reset _ _ _ rfl
  | released hrst =>
    rw [releaseReset, if_pos hrst]
    exact nodeInv_reset _ _ _ rfl

/-- Settles O53: `Inv` is an invariant of each node, and a step at a node keeps it. -/
theorem stepKeepsTheNodeInvariant : Obligations.StepKeepsTheNodeInvariant := by
  intro s t hs h
  rw [inv_iff_nodeInv] at hs ⊢
  intro m
  have hread := nextInput_agrees m s
  have hw : (nextInput s).2.cfg.wf = true := by
    rw [agreesAt_cfg hread]
    exact step_wf h
  exact nodeStep_nodeInv hw (step_nodeStep h m) (nodeInv_congr hread (hs m))

/-- Settles O52: the reset values of each node meet its invariant, and every queue is empty. -/
theorem resetMeetsTheInvariants : Obligations.ResetMeetsTheInvariants := by
  have hinv : Inv State.reset := by
    refine (inv_iff_nodeInv _).mpr fun m => ?_
    have hm := nodeInv_reset m (State.reset.node m) State.reset (by cases m <;> rfl)
    exact nodeInv_congr ⟨by simp, by cases m <;> simp [sameRole, resetRole, State.reset], by cases m <;> rfl⟩ hm
  refine ⟨hinv, ⟨rfl, rfl, rfl, rfl, rfl, rfl, rfl⟩, fun m => ?_⟩
  cases m <;> rfl

end Sys2Proof.Machine
end

section
/-! SUPPORT. Proofs of family 10_state: the progress indices of the display and of the indicator (10_state R33,
45_indicator R220). A tick only raises an index; a received byte keeps the indices or zeroes them, and then no tick
that follows it in the same step can raise them again. -/

namespace Sys2Proof.Machine

/-! ## The countdown engine raises the indices -/

/-- Neither progress index of the display falls. -/
def ProgressGrows (d d' : DisplayRegs) : Prop :=
  d.barIdx.toNat ≤ d'.barIdx.toNat ∧ d.perIdx.toNat ≤ d'.perIdx.toNat

theorem progressGrows_of_eq {d d' : DisplayRegs} (hbar : d'.barIdx = d.barIdx) (hper : d'.perIdx = d.perIdx) :
    ProgressGrows d d' :=
  ⟨by rw [hbar], by rw [hper]⟩

theorem progressGrows_trans {d d' d'' : DisplayRegs} (h1 : ProgressGrows d d') (h2 : ProgressGrows d' d'') :
    ProgressGrows d d'' :=
  ⟨h1.1.trans h2.1, h1.2.trans h2.2⟩

/-- An index that is below its maximum does not wrap (42_countdown R164). -/
theorem bumpProgress_grows {k : Progress} {d : DisplayRegs} (h : progressFires k d = true) :
    ProgressGrows d (bumpProgress k d) := by
  obtain ⟨hidx, -⟩ := (Laws.crosses_iff _ _ _ _).mp h
  cases k <;> simp only [progressIdx, progressMax] at hidx
  · exact ⟨by simp [bumpProgress]; omega, le_refl _⟩
  · exact ⟨le_refl _, by simp [bumpProgress]; omega⟩

theorem ctProgress_grows (k : Progress) (s : State) : ProgressGrows s.disp (ctProgress k s).disp := by
  obtain ⟨hfires, he⟩ | ⟨-, he⟩ := ctProgress_cases k s <;> rw [he]
  · exact bumpProgress_grows hfires
  · exact progressGrows_of_eq rfl rfl

theorem ctSecond_grows (s : State) : ProgressGrows s.disp (ctSecond s).disp := by
  unfold ctSecond
  split
  · exact progressGrows_of_eq rfl rfl
  · obtain ⟨-, -, -, hbar, hper, -⟩ := oneSecondLess_frame s.disp
    exact progressGrows_trans (progressGrows_of_eq (d' := (modDisp oneSecondLess s).disp) hbar hper)
      (progressGrows_trans (ctProgress_grows _ _) (ctProgress_grows _ _))

theorem ctTick_grows (s : State) : ProgressGrows s.disp (ctTick s).disp := by
  unfold ctTick
  split
  · simp only []
    split
    · exact ctSecond_grows (modDisp (fun d => { d with parity := !d.parity }) s)
    · exact progressGrows_of_eq rfl rfl
  · exact progressGrows_of_eq rfl rfl

theorem dspSec_disp (bar per : Bool) (s : State) : (dspSec bar per s).disp = s.disp := by
  cases bar <;> cases per <;> rfl

theorem dspTick_grows (s : State) : ProgressGrows s.disp (dspTick s).disp := by
  have htick := ctTick_grows s
  obtain he | ⟨bar, per, he⟩ | he := dspTick_cases s <;> rw [he]
  · exact progressGrows_trans htick (progressGrows_of_eq rfl rfl)
  · rwa [dspSec_disp]
  · exact htick

theorem dspTick_stopped {s : State} (h : s.disp.ctRun = false) : (dspTick s).disp = s.disp := by
  unfold dspTick
  simp [ctTick_stopped h]

theorem takeTick_grows (s : State) : ProgressGrows s.disp (takeTick s).disp := by
  unfold takeTick
  split
  · exact progressGrows_trans (progressGrows_of_eq rfl rfl)
      (dspTick_grows (modDisp (fun d => { d with ctPend := false }) s))
  · exact progressGrows_of_eq rfl rfl

/-! ## A received byte keeps the indices or zeroes them -/

/-- Both indices are zero, and no pending tick can raise them: the engine is stopped or the display is busy. -/
def ProgressZeroed (s : State) : Prop :=
  s.disp.barIdx = 0 ∧ s.disp.perIdx = 0 ∧ (s.disp.ctRun = false ∨ s.idle .dsp = false)

theorem dspRx_progress (p : Byte) (s : State) :
    ProgressGrows s.disp (dspRx p s).disp ∨ ProgressZeroed (dspRx p s) := by
  unfold dspRx
  cases selectDsp s.cfg s.dsp.st p with
  | tOk => exact .inr ⟨rfl, rfl, .inr (by simp [State.idle, dspTOk, bcastStart, send, message])⟩
  | runReset => exact .inr ⟨rfl, rfl, .inl rfl⟩
  | endReset => exact .inr ⟨rfl, rfl, .inl rfl⟩
  | tDigit d =>
    left
    simp only [dspTDigit]
    split <;> exact progressGrows_of_eq rfl rfl
  | _ => exact .inl (progressGrows_of_eq rfl rfl)

theorem takeByte_progress (s : State) :
    ProgressGrows s.disp (takeByte .dsp s).disp ∨ ProgressZeroed (takeByte .dsp s) := by
  unfold takeByte
  split
  · exact dspRx_progress _ (setRxPend .dsp false s)
  · exact .inl (progressGrows_of_eq rfl rfl)

/-- Where both indices were zeroed, the pending tick leaves them zero. -/
theorem takeTick_zeroed {s : State} (h : ProgressZeroed s) :
    (takeTick s).disp.barIdx = 0 ∧ (takeTick s).disp.perIdx = 0 := by
  obtain ⟨hbar, hper, hstopped | hbusy⟩ := h
  · unfold takeTick
    split
    · have hdisp : (pendingTick s).disp = { s.disp with ctPend := false } := dspTick_stopped hstopped
      rw [hdisp]
      exact ⟨hbar, hper⟩
    · exact ⟨hbar, hper⟩
  · rw [takeTick_of_busy hbusy]
    exact ⟨hbar, hper⟩

/-! ## One step at one node -/

theorem sameRole_refl (m : NodeId) (s : State) : sameRole m s s := by
  cases m <;> simp [sameRole]

theorem sameRole_trans {m : NodeId} {s t u : State} (h1 : sameRole m s t) (h2 : sameRole m t u) :
    sameRole m s u := by
  cases m <;> simp_all [sameRole]

theorem modNode_sameRole (m n : NodeId) (f : Node → Node) (s : State) : sameRole m s (modNode n f s) := by
  cases m <;> simp [sameRole]

/-- No progress index of node `m` falls unless it is zeroed. -/
def ProgressKept (m : NodeId) (s t : State) : Prop :=
  match m with
  | .inp => True
  | .dsp => (s.disp.barIdx.toNat ≤ t.disp.barIdx.toNat ∨ t.disp.barIdx = 0)
      ∧ (s.disp.perIdx.toNat ≤ t.disp.perIdx.toNat ∨ t.disp.perIdx = 0)
  | .ind => s.indr.progIdx.toNat ≤ t.indr.progIdx.toNat ∨ t.indr.progIdx = 0
  | .act => True

theorem progressKept_of_grows {s t : State} (h : ProgressGrows s.disp t.disp) : ProgressKept .dsp s t :=
  ⟨.inl h.1, .inl h.2⟩

theorem progressKept_of_zero {s t : State} (h : t.disp.barIdx = 0 ∧ t.disp.perIdx = 0) : ProgressKept .dsp s t :=
  ⟨.inr h.1, .inr h.2⟩

theorem progressKept_of_sameRole {m : NodeId} {s t : State} (h : sameRole m s t) : ProgressKept m s t := by
  cases m with
  | inp => trivial
  | act => trivial
  | dsp =>
    have hdisp : t.disp = s.disp := h
    exact progressKept_of_grows (progressGrows_of_eq (by rw [hdisp]) (by rw [hdisp]))
  | ind =>
    have hindr : t.indr = s.indr := h
    exact .inl (by rw [hindr])

theorem progressKept_congr {m : NodeId} {s s' t t' : State} (hs : sameRole m s s') (ht : sameRole m t t')
    (h : ProgressKept m s' t) : ProgressKept m s t' := by
  cases m with
  | inp => trivial
  | act => trivial
  | dsp =>
    have hs : s'.disp = s.disp := hs
    have ht : t'.disp = t.disp := ht
    simpa only [ProgressKept, hs, ht] using h
  | ind =>
    have hs : s'.indr = s.indr := hs
    have ht : t'.indr = t.indr := ht
    simpa only [ProgressKept, hs, ht] using h

theorem dspRx_progressKept (p : Byte) (s : State) : ProgressKept .dsp s (dspRx p s) := by
  obtain hgrows | ⟨hbar, hper, -⟩ := dspRx_progress p s
  · exact progressKept_of_grows hgrows
  · exact progressKept_of_zero ⟨hbar, hper⟩

/-- The indicator's index saturates; RESET and the two START codes zero it (45_indicator R211 to R215). -/
theorem indRx_progressKept (p : Byte) (s : State) : ProgressKept .ind s (indRx p s) := by
  have hadvance : s.indr.progIdx.toNat ≤ (advanceProg s.indr.progIdx).toNat := by
    rw [advanceProg_toNat]
    split <;> omega
  unfold indRx
  cases selectInd s.cfg s.ind.st p with
  | reset => exact .inr (by simp [indReset, Laws.clearFrame_eq, emit, setSt])
  | startNt => exact .inr rfl
  | startWt => exact .inr rfl
  | prog => exact .inl hadvance
  | progAny p => exact .inl hadvance
  | ended => exact .inl (le_refl _)
  | ign p => exact .inl (le_refl _)

theorem rx_progressKept (m : NodeId) (p : Byte) (s : State) : ProgressKept m s (rx m p s) := by
  cases m with
  | inp => trivial
  | dsp => exact dspRx_progressKept p s
  | ind => exact indRx_progressKept p s
  | act => trivial

theorem keepByte_sameRole (m : NodeId) (b : Byte) (s : State) : sameRole m s (keepByte m b s) := by
  unfold keepByte overrun
  split
  · split
    · exact sameRole_refl m s
    · exact modNode_sameRole m m _ s
  · exact sameRole_trans (modNode_sameRole m m _ s) (modNode_sameRole m m _ _)

theorem rxChar_progressKept (m : NodeId) (c : Char9) (s : State) : ProgressKept m s (rxChar m c s) := by
  unfold rxChar
  repeat' split
  · exact progressKept_of_sameRole (sameRole_refl m s)
  · exact progressKept_of_sameRole (modNode_sameRole m m _ s)
  · exact progressKept_of_sameRole (modNode_sameRole m m _ s)
  · unfold rxdAcc acceptByte
    refine progressKept_congr (s' := setFilter m true s) (modNode_sameRole m m _ s) (sameRole_refl m _) ?_
    split
    · exact rx_progressKept m _ _
    · exact progressKept_of_sameRole (keepByte_sameRole m _ _)

theorem takeByte_progressKept (n : NodeId) (s : State) : ProgressKept n s (takeByte n s) := by
  unfold takeByte
  split
  · exact progressKept_congr (modNode_sameRole n n _ s) (sameRole_refl n _) (rx_progressKept n _ (setRxPend n false s))
  · exact progressKept_of_sameRole (sameRole_refl n s)

theorem takeTick_takeByte_progressKept (s : State) : ProgressKept .dsp s (takeTick (takeByte .dsp s)) := by
  obtain hgrows | hzeroed := takeByte_progress s
  · exact progressKept_of_grows (progressGrows_trans hgrows (takeTick_grows _))
  · exact progressKept_of_zero (takeTick_zeroed hzeroed)

theorem takeByte_takeTick_progressKept (s : State) : ProgressKept .dsp s (takeByte .dsp (takeTick s)) := by
  obtain hgrows | ⟨hbar, hper, -⟩ := takeByte_progress (takeTick s)
  · exact progressKept_of_grows (progressGrows_trans (takeTick_grows s) hgrows)
  · exact progressKept_of_zero ⟨hbar, hper⟩

theorem idleEntry_progressKept (n : NodeId) (s : State) : ProgressKept n s (idleEntry n s) := by
  cases n with
  | inp => trivial
  | act => trivial
  | ind => exact takeByte_progressKept .ind s
  | dsp =>
    obtain ⟨k, he | he⟩ := idleEntry_dsp_cases s <;> rw [he]
    · exact takeTick_takeByte_progressKept { s with free := k }
    · exact takeByte_takeTick_progressKept { s with free := k }

theorem resetRole_progressKept (m : NodeId) (f : Node → Node) (s : State) :
    ProgressKept m s (modNode m f (resetRole m s)) := by
  cases m with
  | inp => trivial
  | act => trivial
  | dsp => exact progressKept_of_zero ⟨rfl, rfl⟩
  | ind => exact .inr rfl

/-- Everything a step can do at a node keeps the node's progress. -/
theorem nodeStep_progressKept {m : NodeId} {i : Input} {s t : State} (h : NodeStep m i s t) :
    ProgressKept m s t := by
  cases h with
  | untouched _ h =>
    obtain ⟨-, hrole, -⟩ := h
    exact progressKept_of_sameRole hrole
  | hears c _ h =>
    obtain ⟨-, hrole, -⟩ := h
    exact progressKept_congr (sameRole_refl m s) hrole (rxChar_progressKept m c s)
  | @sends _ _ u _ c rest _ hu ht =>
    obtain ⟨-, hrole, -⟩ := hu
    have hread : sameRole m s u := sameRole_trans (modNode_sameRole m m _ s) hrole
    subst ht
    split
    · exact progressKept_congr hread (sameRole_refl m _) (idleEntry_progressKept m u)
    · exact progressKept_of_sameRole hread
  | accepts p => exact rx_progressKept m p s
  | keeps p => exact progressKept_of_sameRole (keepByte_sameRole m p s)
  | key => trivial
  | tick => exact progressKept_of_grows (dspTick_grows s)
  | keepsTick => exact progressKept_of_grows (progressGrows_of_eq rfl rfl)
  | duty => trivial
  | blink =>
    unfold indBlink
    split <;> exact .inl (le_refl _)
  | frame =>
    unfold indFrame
    split <;> exact .inl (le_refl _)
  | held => exact resetRole_progressKept m _ s
  | released hrst =>
    rw [releaseReset, if_pos hrst]
    exact resetRole_progressKept m _ s

theorem step_progressKept {s t : State} (h : step s = .next t) (m : NodeId) : ProgressKept m s t := by
  obtain ⟨-, hread, -⟩ := nextInput_agrees m s
  exact progressKept_congr hread (sameRole_refl m t) (nodeStep_progressKept (step_nodeStep h m))

/-- Settles O58: node by node, a step raises an index, keeps it or zeroes it. -/
theorem progressNeverFallsButToZero : Obligations.ProgressNeverFallsButToZero := by
  intro s t h
  obtain ⟨hbar, hper⟩ := step_progressKept h .dsp
  exact ⟨hbar, hper, step_progressKept h .ind⟩

end Sys2Proof.Machine
end

section
/-! SUPPORT. Proofs of family 20_memory: the order of a node's queue (20_memory R69). Every handler only appends to
its own node's queue, reception and idle entry are made of handlers, and the head leaves in a slot of the node's own. -/

namespace Sys2Proof.Machine

/-! ## Handlers, reception and idle entry only append -/

/-- The queue of node `n` in `t` is its queue in `s`, extended at its end. -/
def QueueGrows (n : NodeId) (s t : State) : Prop :=
  (s.node n).txq <+: (t.node n).txq

theorem queueGrows_of_eq {n : NodeId} {s t : State} (h : (t.node n).txq = (s.node n).txq) : QueueGrows n s t :=
  ⟨[], by rw [h, List.append_nil]⟩

theorem queueGrows_trans {n : NodeId} {s t u : State} (h1 : QueueGrows n s t) (h2 : QueueGrows n t u) :
    QueueGrows n s u :=
  List.IsPrefix.trans h1 h2

theorem queueGrows_of_appends {n : NodeId} {k : Nat} {s t : State} (h : Appends n k s t) : QueueGrows n s t := by
  obtain ⟨new, hq, -⟩ := h
  exact ⟨new, hq.symm⟩

theorem setFilter_queueGrows (n : NodeId) (v : Bool) (s : State) : QueueGrows n s (setFilter n v s) :=
  queueGrows_of_eq (by simp [setFilter])

theorem setRxPend_queueGrows (n : NodeId) (v : Bool) (s : State) : QueueGrows n s (setRxPend n v s) :=
  queueGrows_of_eq (by simp [setRxPend])

theorem setRxBuf_queueGrows (n : NodeId) (b : Byte) (s : State) : QueueGrows n s (setRxBuf n b s) :=
  queueGrows_of_eq (by simp [setRxBuf])

theorem rx_queueGrows (m : NodeId) (p : Byte) (s : State) : QueueGrows m s (rx m p s) := by
  cases m with
  | inp => exact queueGrows_of_eq rfl
  | dsp => exact queueGrows_of_appends (dspRx_appends p s)
  | ind => exact queueGrows_of_eq (indRx_txq p s)
  | act => exact queueGrows_of_eq (actRx_txq p s)

theorem keepByte_queueGrows (m : NodeId) (b : Byte) (s : State) : QueueGrows m s (keepByte m b s) := by
  unfold keepByte overrun
  split
  · split
    · exact queueGrows_of_eq rfl
    · exact setRxBuf_queueGrows m b s
  · exact queueGrows_trans (setRxBuf_queueGrows m b s) (setRxPend_queueGrows m true _)

/-- A character heard lets the receiver's queue grow by what its receive handler sends (40_framer R113, R116). -/
theorem rxChar_queueGrows (m : NodeId) (c : Char9) (s : State) : QueueGrows m s (rxChar m c s) := by
  unfold rxChar
  repeat' split
  · exact queueGrows_of_eq rfl
  · exact setFilter_queueGrows m _ s
  · exact setFilter_queueGrows m _ s
  · unfold rxdAcc acceptByte
    refine queueGrows_trans (setFilter_queueGrows m true s) ?_
    split
    · exact rx_queueGrows m _ _
    · exact keepByte_queueGrows m _ _

theorem takeByte_queueGrows (n : NodeId) (s : State) : QueueGrows n s (takeByte n s) := by
  unfold takeByte
  split
  · exact queueGrows_trans (setRxPend_queueGrows n false s) (rx_queueGrows n _ _)
  · exact queueGrows_of_eq rfl

theorem takeTick_queueGrows (s : State) : QueueGrows .dsp s (takeTick s) := by
  unfold takeTick
  split
  · exact queueGrows_of_appends (dspTick_appends (modDisp (fun d => { d with ctPend := false }) s))
  · exact queueGrows_of_eq rfl

/-- What is pending when the queue empties is handled, and only appends (40_framer R118). -/
theorem idleEntry_queueGrows (n : NodeId) (s : State) : QueueGrows n s (idleEntry n s) := by
  cases n with
  | inp => exact takeByte_queueGrows .inp s
  | ind => exact takeByte_queueGrows .ind s
  | act => exact takeByte_queueGrows .act s
  | dsp =>
    obtain ⟨k, he | he⟩ := idleEntry_dsp_cases s <;> rw [he]
    · exact queueGrows_trans (takeByte_queueGrows .dsp { s with free := k }) (takeTick_queueGrows _)
    · exact queueGrows_trans (takeTick_queueGrows { s with free := k }) (takeByte_queueGrows .dsp _)

/-! ## One step at one node -/

/-- The queue of node `n` loses at most its head and is extended at its end. -/
def QueueAdvances (n : NodeId) (s t : State) : Prop :=
  ∃ k new, k ≤ 1 ∧ (t.node n).txq = (s.node n).txq.drop k ++ new

theorem queueAdvances_of_grows {n : NodeId} {s t : State} (h : QueueGrows n s t) : QueueAdvances n s t := by
  obtain ⟨new, hq⟩ := h
  exact ⟨0, new, Nat.zero_le 1, hq.symm⟩

theorem queueAdvances_of_tail {n : NodeId} {s t u : State} (htail : (u.node n).txq = (s.node n).txq.tail)
    (h : QueueGrows n u t) : QueueAdvances n s t := by
  obtain ⟨new, hq⟩ := h
  exact ⟨1, new, le_refl 1, by rw [← hq, htail, List.drop_one]⟩

/-- Everything a step can do at a node keeps the order of its queue, but for power-on reset of the node. -/
theorem nodeStep_queue {m : NodeId} {i : Input} {s t : State} (h : NodeStep m i s t) :
    QueueAdvances m s t ∨ ((t.node m).txq = [] ∧ (i = .ev (.resetOn m) ∨ i = .ev (.resetOff m))) := by
  cases h with
  | untouched _ h =>
    obtain ⟨hnode, -, -⟩ := h
    exact .inl (queueAdvances_of_grows (queueGrows_of_eq (by rw [hnode])))
  | hears c _ h =>
    obtain ⟨hnode, -, -⟩ := h
    exact .inl (queueAdvances_of_grows (queueGrows_trans (rxChar_queueGrows m c s) (queueGrows_of_eq (by rw [hnode]))))
  | @sends _ _ u _ c rest hq hu ht =>
    obtain ⟨hnode, -, -⟩ := hu
    have htail : (u.node m).txq = (s.node m).txq.tail := by
      rw [hnode, modNode_node_same, hq]
      rfl
    have hgrows : QueueGrows m u t := by
      subst ht
      split
      · exact idleEntry_queueGrows m u
      · exact queueGrows_of_eq rfl
    exact .inl (queueAdvances_of_tail htail hgrows)
  | accepts p => exact .inl (queueAdvances_of_grows (rx_queueGrows m p s))
  | keeps p => exact .inl (queueAdvances_of_grows (keepByte_queueGrows m p s))
  | key k _ h =>
    obtain ⟨happends, -, -⟩ := exec_keyInstr h
    exact .inl (queueAdvances_of_grows (queueGrows_of_appends happends))
  | tick => exact .inl (queueAdvances_of_grows (queueGrows_of_appends (dspTick_appends s)))
  | keepsTick => exact .inl (queueAdvances_of_grows (queueGrows_of_eq rfl))
  | duty => exact .inl (queueAdvances_of_grows (queueGrows_of_eq (dcTick_txq s)))
  | blink => exact .inl (queueAdvances_of_grows (queueGrows_of_eq (indBlink_txq s)))
  | frame => exact .inl (queueAdvances_of_grows (queueGrows_of_eq (indFrame_txq s)))
  | held => exact .inr ⟨by rw [holdReset, modNode_node_same]; rfl, .inl rfl⟩
  | released hrst => exact .inr ⟨by rw [releaseReset, if_pos hrst, modNode_node_same]; rfl, .inr rfl⟩

/-- Settles O57: at each node a step appends to the queue, takes the head in a slot of the node's own and may append
then, or is the node's power-on reset. -/
theorem queueKeepsItsOrder : Obligations.QueueKeepsItsOrder := by
  intro s t n h
  obtain ⟨hread, -, -⟩ := nextInput_agrees n s
  rw [← hread]
  exact nodeStep_queue (step_nodeStep h n)

end Sys2Proof.Machine
end

section
/-! SUPPORT. Proofs of family 30_encoding: the decoder, the dispatch tables and the rows of the operation table read
bits alike. `Selects` reads bits by the tables: that is what the decoder does (`decode_eq_ok_iff`), and what a table
selects is the row of its operation (`isRow_of_selects`). -/

namespace Sys2Proof.Machine

/-! ## The two readings of bits -/

/-- The bits `bs`, exactly one unit of the context's format, select operation `i` by the dispatch tables (30_encoding
R83 to R88, 40_framer R110, R113). -/
def Selects (cfg : Cfg) (cx : Context) (bs : List Byte) (i : Instr) : Prop :=
  match cx with
  | .heard m filter => ∃ c, bs = charBytes c ∧ charInstr m filter c = i
  | .accepted m st => ∃ p, bs = payloadBytes p ∧ payloadInstr cfg m st p = i
  | .pressed st => ∃ k, bs = [keycode k] ∧ keyInstr cfg st k = i
  | .sent n =>
    ∃ a p, bs = charBytes (addrCh a) ++ charBytes (dataCh p) ∧ (n = .inp ∨ n = .dsp) ∧ .send n a p = i

/-- The row of operation `i` in the operation table has the bits `bs` and applies in the context (30_encoding R92). -/
def IsRow (cfg : Cfg) (cx : Context) (i : Instr) (bs : List Byte) : Prop :=
  i.wf cfg = true ∧ admits cfg cx i = true ∧ encode cfg i = some bs

theorem payloadBytes_injective {p q : Byte} (h : payloadBytes p = payloadBytes q) : p = q := by
  simpa [payloadBytes, charBytes, dataCh] using h

theorem keycode_injective {k l : Key} (h : keycode k = keycode l) : k = l := by
  simpa using congrArg keyOf h

theorem charBytes_injective {c d : Char9} (h : charBytes c = charBytes d) : c = d := by
  have hc := Laws.takeChar_charBytes c []
  rw [h, Laws.takeChar_charBytes] at hc
  cases hc
  rfl

/-- Bits select one operation at most. -/
theorem selects_unique {cfg : Cfg} {cx : Context} {bs : List Byte} {i j : Instr} (hi : Selects cfg cx bs i)
    (hj : Selects cfg cx bs j) : i = j := by
  cases cx with
  | heard m filter =>
    obtain ⟨c, rfl, rfl⟩ := hi
    obtain ⟨d, hbits, rfl⟩ := hj
    rw [charBytes_injective hbits]
  | accepted m st =>
    obtain ⟨p, rfl, rfl⟩ := hi
    obtain ⟨q, hbits, rfl⟩ := hj
    rw [payloadBytes_injective hbits]
  | pressed st =>
    obtain ⟨k, rfl, rfl⟩ := hi
    obtain ⟨l, hbits, rfl⟩ := hj
    rw [keycode_injective (List.singleton_inj.mp hbits)]
  | sent n =>
    obtain ⟨a, p, rfl, -, rfl⟩ := hi
    obtain ⟨b, q, hbits, -, rfl⟩ := hj
    obtain ⟨haddr, hdata⟩ := List.append_inj hbits rfl
    cases charBytes_injective haddr
    cases charBytes_injective hdata
    rfl

/-! ## The decoder reads what the tables select -/

theorem takeMessage_eq_ok_iff {bs rest : List Byte} {a p : Byte} :
    takeMessage bs = .ok ((a, p), rest) ↔ bs = charBytes (addrCh a) ++ charBytes (dataCh p) ++ rest := by
  constructor
  · intro h
    unfold takeMessage at h
    split at h
    · cases h
    · next c1 bs1 h1 =>
      split at h
      · cases h
      · next c2 bs2 h2 =>
        obtain ⟨m1, b1⟩ := c1
        obtain ⟨m2, b2⟩ := c2
        cases m1 <;> cases m2 <;> cases h
        rw [Laws.takeChar_ok h1, Laws.takeChar_ok h2, List.append_assoc]
        rfl
  · rintro rfl
    simp [takeMessage, addrCh, dataCh]

/-- The decoder reads the first of the bytes by the tables, and leaves what follows. -/
theorem decode_eq_ok_iff {cfg : Cfg} {cx : Context} {bs rest : List Byte} {i : Instr} :
    decode cfg cx bs = .ok (i, rest) ↔ ∃ pre, Selects cfg cx pre i ∧ bs = pre ++ rest := by
  constructor
  · intro h
    cases cx with
    | heard m filter =>
      simp only [decode] at h
      split at h <;> cases h
      next c hc => exact ⟨_, ⟨c, rfl, rfl⟩, Laws.takeChar_ok hc⟩
    | accepted m st =>
      simp only [decode] at h
      split at h
      · cases h
      · next c rest' hc =>
        obtain ⟨marker, p⟩ := c
        cases marker <;> cases h
        exact ⟨_, ⟨p, rfl, rfl⟩, Laws.takeChar_ok hc⟩
    | pressed st =>
      simp only [decode] at h
      split at h
      · cases h
      · split at h <;> cases h
        next k hk => exact ⟨_, ⟨k, rfl, rfl⟩, by rw [Laws.keycode_keyOf hk]; rfl⟩
    | sent n =>
      simp only [decode] at h
      split at h
      · next hn =>
        split at h <;> cases h
        next a p hm => exact ⟨_, ⟨a, p, rfl, hn, rfl⟩, takeMessage_eq_ok_iff.mp hm⟩
      · cases h
  · rintro ⟨pre, hsel, rfl⟩
    cases cx with
    | heard m filter =>
      obtain ⟨c, rfl, rfl⟩ := hsel
      simp [decode]
    | accepted m st =>
      obtain ⟨p, rfl, rfl⟩ := hsel
      simp [decode, payloadBytes, dataCh]
    | pressed st =>
      obtain ⟨k, rfl, rfl⟩ := hsel
      simp [decode]
    | sent n =>
      obtain ⟨a, p, rfl, hn, rfl⟩ := hsel
      simp only [decode, if_pos hn, takeMessage_eq_ok_iff.mpr rfl]

/-! ## Codes of a well-formed build (00_scope R8) -/

theorem digitCode_ne {b : Byte} (h : isDigitCode b = false) (d : Digit) : digitCode d ≠ b := by
  rintro rfl
  simp at h

theorem wf_displayCodes {c : Cfg} (h : c.wf = true) :
    isDigitCode c.dReset = false ∧ isDigitCode c.dDelete = false ∧ isDigitCode c.dConfirm = false
    ∧ c.dDelete ≠ c.dConfirm := by
  simp [Cfg.wf] at h
  tauto

/-- Each code of the indicator differs from those its table tests before it (30_encoding R85). -/
theorem wf_indicatorCodes {c : Cfg} (h : c.wf = true) :
    c.iStartNt ≠ c.iReset ∧ (c.iStartWt ≠ c.iReset ∧ c.iStartWt ≠ c.iStartNt)
    ∧ (c.iEnded ≠ c.iReset ∧ c.iEnded ≠ c.iStartNt ∧ c.iEnded ≠ c.iStartWt)
    ∧ (c.iProgress ≠ c.iReset ∧ c.iProgress ≠ c.iStartNt ∧ c.iProgress ≠ c.iStartWt ∧ c.iProgress ≠ c.iEnded) := by
  simp [Cfg.wf] at h
  grind

theorem wf_actuatorCodes {c : Cfg} (h : c.wf = true) :
    isDigitCode c.aReset = false ∧ isDigitCode c.aEnded = false ∧ c.aReset ≠ c.aEnded := by
  simp [Cfg.wf] at h
  tauto

theorem wf_keyReset {c : Cfg} (h : c.wf = true) : c.keyReset = .star ∨ c.keyReset = .hash := by
  simp [Cfg.wf] at h
  tauto

/-! ## What a table selects is the row of its operation -/

theorem payloadBytes_digitCode {p : Byte} {d : Digit} (h : digitOf p = some d) :
    payloadBytes (digitCode d) = payloadBytes p := by
  rw [Laws.digitCode_digitOf h]

/-- A payload that `DSP.IGN` ignores selects it (30_encoding R84). -/
theorem dspIgn_isRow {cfg : Cfg} {st : SessionState} {p : Byte} (h : dspIgnores cfg st p = true) :
    IsRow cfg (.accepted .dsp st) (.dspIgn p) (payloadBytes p) :=
  ⟨rfl, h, rfl⟩

/-- 30_encoding R84. -/
theorem selectDsp_isRow (cfg : Cfg) (st : SessionState) (p : Byte) :
    IsRow cfg (.accepted .dsp st) (dspInstr (selectDsp cfg st p)) (payloadBytes p) := by
  cases st <;> simp only [selectDsp]
  case standby => exact ⟨rfl, rfl, rfl⟩
  case selectSpeed =>
    split
    · next d hd => exact ⟨rfl, rfl, congrArg some (payloadBytes_digitCode hd)⟩
    · next hd => exact dspIgn_isRow (by simp [dspIgnores, (Laws.digitOf_eq_none_iff p).mp hd])
  case selectMode =>
    split
    · next d hd =>
      have hbits := congrArg some (payloadBytes_digitCode hd)
      split
      · next h0 => exact ⟨rfl, rfl, by rwa [h0] at hbits⟩
      · next h0 => exact ⟨decide_eq_true h0, rfl, hbits⟩
    · next hd => exact dspIgn_isRow (by simp [dspIgnores, (Laws.digitOf_eq_none_iff p).mp hd])
  case enterTimer =>
    split
    · next h => exact ⟨rfl, rfl, h ▸ rfl⟩
    · next hdel =>
      split
      · next h => exact ⟨rfl, rfl, h ▸ rfl⟩
      · next hok =>
        split
        · next d hd => exact ⟨rfl, rfl, congrArg some (payloadBytes_digitCode hd)⟩
        · next hd => exact dspIgn_isRow (by simp [dspIgnores, (Laws.digitOf_eq_none_iff p).mp hd, hdel, hok])
  case noTimer | timerRunning =>
    split
    · next h => exact ⟨rfl, rfl, h ▸ rfl⟩
    · next hreset =>
      split
      · next d hd => exact ⟨rfl, rfl, congrArg some (payloadBytes_digitCode hd)⟩
      · next hd => exact dspIgn_isRow (by simp [dspIgnores, (Laws.digitOf_eq_none_iff p).mp hd, hreset])
  case timerEnded =>
    split
    · next h => exact ⟨rfl, rfl, h ▸ rfl⟩
    · next hreset => exact dspIgn_isRow (by simp [dspIgnores, hreset])

/-- 30_encoding R85. -/
theorem selectInd_isRow (cfg : Cfg) (st : SessionState) (p : Byte) :
    IsRow cfg (.accepted .ind st) (indInstr (selectInd cfg st p)) (payloadBytes p) := by
  simp only [selectInd]
  split
  · next h => exact ⟨rfl, rfl, h ▸ rfl⟩
  · split
    · next h => exact ⟨rfl, rfl, h ▸ rfl⟩
    · split
      · next h => exact ⟨rfl, rfl, h ▸ rfl⟩
      · split
        · next hst =>
          subst hst
          split
          · next h => exact ⟨rfl, rfl, h ▸ rfl⟩
          · split
            · next h => exact ⟨rfl, rfl, h ▸ rfl⟩
            · exact ⟨by simp [indInstr, Instr.wf, *], rfl, rfl⟩
        · exact ⟨by simp [indInstr, Instr.wf, *], by simp [indInstr, admits, atNode, *], rfl⟩

/-- 30_encoding R86. `A_ENDED` is no digit code, so the row ignored outside `NoTimer` is no speed. -/
theorem selectAct_isRow {cfg : Cfg} (hc : cfg.wf = true) (st : SessionState) (p : Byte) :
    IsRow cfg (.accepted .act st) (actInstr (selectAct cfg st p)) (payloadBytes p) := by
  obtain ⟨-, hended, -⟩ := wf_actuatorCodes hc
  simp only [selectAct]
  split
  · next h => exact ⟨rfl, rfl, h ▸ rfl⟩
  · next hreset =>
    split
    · next h =>
      split
      · next hst => exact ⟨rfl, hst ▸ rfl, h ▸ rfl⟩
      · next hst =>
        have hwf : (Instr.actIgn p).wf cfg = true := by simp [Instr.wf, hreset, h ▸ hended]
        exact ⟨hwf, by simp [actInstr, admits, atNode, hst], rfl⟩
    · next h =>
      split
      · next d hd => exact ⟨rfl, rfl, congrArg some (payloadBytes_digitCode hd)⟩
      · next hd =>
        have hwf : (Instr.actIgn p).wf cfg = true := by
          simp [Instr.wf, hreset, (Laws.digitOf_eq_none_iff p).mp hd]
        exact ⟨hwf, by simp [actInstr, admits, atNode, h], rfl⟩

/-- 30_encoding R87. -/
theorem selectKey_isRow (cfg : Cfg) (st : SessionState) (k : Key) :
    IsRow cfg (.pressed st) (keyInstr cfg st k) [keycode k] := by
  unfold keyInstr
  cases st
  case standby | timerEnded => exact ⟨rfl, rfl, rfl⟩
  case selectSpeed | enterTimer => cases k <;> exact ⟨rfl, rfl, rfl⟩
  case selectMode =>
    cases k with
    | digit d =>
      simp only [selectKey]
      split
      · next h => exact ⟨rfl, rfl, h ▸ rfl⟩
      · next h => exact ⟨decide_eq_true h, rfl, rfl⟩
    | star | hash => exact ⟨rfl, rfl, rfl⟩
  case noTimer | timerRunning =>
    cases k with
    | digit d => exact ⟨rfl, rfl, rfl⟩
    | star | hash =>
      simp only [selectKey]
      split
      · next h => exact ⟨rfl, rfl, h ▸ rfl⟩
      · next h => exact ⟨rfl, by simp [inpInstr, admits, inpIgnores, Key.nonDigit, h], rfl⟩

/-- 40_framer R113. -/
theorem charInstr_isRow (cfg : Cfg) (m : NodeId) (filter : Bool) (c : Char9) :
    IsRow cfg (.heard m filter) (charInstr m filter c) (charBytes c) := by
  obtain ⟨marker, b⟩ := c
  cases marker <;> cases filter <;> exact ⟨rfl, by simp [charInstr, admits], rfl⟩

theorem payloadInstr_isRow {cfg : Cfg} (hc : cfg.wf = true) (m : NodeId) (st : SessionState) (p : Byte) :
    IsRow cfg (.accepted m st) (payloadInstr cfg m st p) (payloadBytes p) := by
  cases m with
  | inp => exact ⟨rfl, rfl, rfl⟩
  | dsp => exact selectDsp_isRow cfg st p
  | ind => exact selectInd_isRow cfg st p
  | act => exact selectAct_isRow hc st p

theorem isRow_of_selects {cfg : Cfg} {cx : Context} {bs : List Byte} {i : Instr} (hc : cfg.wf = true)
    (h : Selects cfg cx bs i) : IsRow cfg cx i bs := by
  cases cx with
  | heard m filter =>
    obtain ⟨c, rfl, rfl⟩ := h
    exact charInstr_isRow cfg m filter c
  | accepted m st =>
    obtain ⟨p, rfl, rfl⟩ := h
    exact payloadInstr_isRow hc m st p
  | pressed st =>
    obtain ⟨k, rfl, rfl⟩ := h
    exact selectKey_isRow cfg st k
  | sent n =>
    obtain ⟨a, p, rfl, hn, rfl⟩ := h
    exact ⟨decide_eq_true hn, decide_eq_true rfl, rfl⟩

end Sys2Proof.Machine
end

section
/-! SUPPORT. Proofs of family 30_encoding: every row of the operation table is selected by its dispatch table, so the
two readings of bits agree, and the round trips follow. -/

namespace Sys2Proof.Machine

/-! ## Every row is selected by its table -/

/-- Where no other row of the display matches, its table ignores (41_display R141). -/
theorem selectDsp_of_dspIgnores {cfg : Cfg} {st : SessionState} {p : Byte} (h : dspIgnores cfg st p = true) :
    selectDsp cfg st p = .ign p := by
  cases st
  case standby => cases h
  all_goals
    simp only [dspIgnores, Bool.and_eq_true, Bool.not_eq_true', decide_eq_true_eq, ← Laws.digitOf_eq_none_iff] at h
    simp [selectDsp, h]

/-- Where no other row of the input node matches, its table ignores (44_input R200). -/
theorem selectKey_of_inpIgnores {cfg : Cfg} {st : SessionState} {k : Key} (h : inpIgnores cfg st k = true) :
    selectKey cfg st k = .ign k := by
  cases st
  case standby | enterTimer => cases h
  case timerEnded => rfl
  case selectSpeed | selectMode =>
    cases k with
    | digit d => cases h
    | star | hash => rfl
  case noTimer | timerRunning =>
    cases k with
    | digit d => cases h
    | star | hash => exact if_neg (by simpa [inpIgnores, Key.nonDigit] using h)

/-- 30_encoding R84: control codes are no digit codes, and deletion is not confirmation. -/
theorem exists_selectDsp {cfg : Cfg} {st : SessionState} {op : DspRxOp} (hc : cfg.wf = true)
    (hw : (dspInstr op).wf cfg = true) (ha : admits cfg (.accepted .dsp st) (dspInstr op) = true) :
    ∃ p, selectDsp cfg st p = op := by
  obtain ⟨hreset, hdel, hok, hne⟩ := wf_displayCodes hc
  cases op <;> simp only [dspInstr, admits, decide_eq_true_eq, Context.accepted.injEq, true_and] at ha
  case wake p => exact ⟨p, by rw [ha]; rfl⟩
  case speed d => exact ⟨digitCode d, by simp [ha, selectDsp]⟩
  case modeNt d =>
    have hd : d ≠ 0 := of_decide_eq_true hw
    exact ⟨digitCode d, by simp [ha, selectDsp, hd]⟩
  case modeT => exact ⟨digitCode 0, by simp [ha, selectDsp]⟩
  case tDel => exact ⟨cfg.dDelete, by simp [ha, selectDsp]⟩
  case tOk => exact ⟨cfg.dConfirm, by simp [ha, selectDsp, hne.symm]⟩
  case tDigit d => exact ⟨digitCode d, by simp [ha, selectDsp, digitCode_ne hdel, digitCode_ne hok]⟩
  case runReset => exact ⟨cfg.dReset, by obtain rfl | rfl := ha <;> simp [selectDsp]⟩
  case runSpeed d => exact ⟨digitCode d, by obtain rfl | rfl := ha <;> simp [selectDsp, digitCode_ne hreset]⟩
  case endReset => exact ⟨cfg.dReset, by simp [ha, selectDsp]⟩
  case ign p => exact ⟨p, selectDsp_of_dspIgnores ha⟩

/-- 30_encoding R85: the five codes differ. -/
theorem exists_selectInd {cfg : Cfg} {st : SessionState} {op : IndRxOp} (hc : cfg.wf = true)
    (hw : (indInstr op).wf cfg = true) (ha : admits cfg (.accepted .ind st) (indInstr op) = true) :
    ∃ p, selectInd cfg st p = op := by
  have hcodes := wf_indicatorCodes hc
  cases op with
  | reset => exact ⟨cfg.iReset, by simp [selectInd]⟩
  | startNt => exact ⟨cfg.iStartNt, by simp [selectInd, hcodes]⟩
  | startWt => exact ⟨cfg.iStartWt, by simp [selectInd, hcodes]⟩
  | ended =>
    obtain rfl : st = .timerRunning := by simpa [indInstr, admits] using ha
    exact ⟨cfg.iEnded, by simp [selectInd, hcodes]⟩
  | prog =>
    obtain rfl : st = .timerRunning := by simpa [indInstr, admits] using ha
    exact ⟨cfg.iProgress, by simp [selectInd, hcodes]⟩
  | progAny p =>
    obtain rfl : st = .timerRunning := by simpa [indInstr, admits] using ha
    have hp : p ∉ [cfg.iReset, cfg.iStartNt, cfg.iStartWt, cfg.iProgress, cfg.iEnded] := of_decide_eq_true hw
    exact ⟨p, by simp_all [selectInd]⟩
  | ign p =>
    have hst : st ≠ .timerRunning := by simpa [indInstr, admits, atNode] using ha
    have hp : p ∉ [cfg.iReset, cfg.iStartNt, cfg.iStartWt] := of_decide_eq_true hw
    exact ⟨p, by simp_all [selectInd]⟩

/-- 30_encoding R86. -/
theorem exists_selectAct {cfg : Cfg} {st : SessionState} {op : ActRxOp} (hc : cfg.wf = true)
    (hw : (actInstr op).wf cfg = true) (ha : admits cfg (.accepted .act st) (actInstr op) = true) :
    ∃ p, selectAct cfg st p = op := by
  obtain ⟨hreset, hended, hne⟩ := wf_actuatorCodes hc
  cases op with
  | reset => exact ⟨cfg.aReset, by simp [selectAct]⟩
  | ended =>
    obtain rfl : st = .noTimer := by simpa [actInstr, admits] using ha
    exact ⟨cfg.aEnded, by simp [selectAct, hne.symm]⟩
  | speed d => exact ⟨digitCode d, by simp [selectAct, digitCode_ne hreset, digitCode_ne hended]⟩
  | ign p =>
    obtain ⟨hp, hdigit⟩ : p ≠ cfg.aReset ∧ isDigitCode p = false := by simpa [actInstr, Instr.wf] using hw
    have hst : p = cfg.aEnded → st ≠ .noTimer := by simpa [actInstr, admits, atNode, ← imp_iff_not_or] using ha
    refine ⟨p, ?_⟩
    simp only [selectAct, if_neg hp, (Laws.digitOf_eq_none_iff p).mpr hdigit]
    split
    · next h => exact if_neg (hst h)
    · rfl

/-- 30_encoding R87: the RESET key is no digit. -/
theorem exists_selectKey {cfg : Cfg} {st : SessionState} {op : InpKeyOp} (hc : cfg.wf = true)
    (hw : (inpInstr op).wf cfg = true) (ha : admits cfg (.pressed st) (inpInstr op) = true) :
    ∃ k, selectKey cfg st k = op := by
  cases op <;> simp only [inpInstr, admits, decide_eq_true_eq, Context.pressed.injEq] at ha
  case wake k => exact ⟨k, by rw [ha]; rfl⟩
  case speed d => exact ⟨.digit d, by rw [ha]; rfl⟩
  case modeNt d =>
    subst ha
    exact ⟨.digit d, if_neg (of_decide_eq_true hw)⟩
  case modeT => exact ⟨.digit 0, by rw [ha]; rfl⟩
  case tDel => exact ⟨.star, by rw [ha]; rfl⟩
  case tOk => exact ⟨.hash, by rw [ha]; rfl⟩
  case tDigit d => exact ⟨.digit d, by rw [ha]; rfl⟩
  case runDigit d => exact ⟨.digit d, by obtain rfl | rfl := ha <;> rfl⟩
  case runReset =>
    obtain hk | hk := wf_keyReset hc <;>
      exact ⟨cfg.keyReset, by obtain rfl | rfl := ha <;> simp [selectKey, hk]⟩
  case ign k => exact ⟨k, selectKey_of_inpIgnores ha⟩

/-! The rows that apply in a context are those of its table. -/

theorem admits_accepted_dsp {cfg : Cfg} {st : SessionState} {i : Instr}
    (h : admits cfg (.accepted .dsp st) i = true) : ∃ op, i = dspInstr op := by
  cases i
  case dspWake p => exact ⟨.wake p, rfl⟩
  case dspSpeed d => exact ⟨.speed d, rfl⟩
  case dspModeNt d => exact ⟨.modeNt d, rfl⟩
  case dspModeT => exact ⟨.modeT, rfl⟩
  case dspTDel => exact ⟨.tDel, rfl⟩
  case dspTOk => exact ⟨.tOk, rfl⟩
  case dspTDigit d => exact ⟨.tDigit d, rfl⟩
  case dspRunReset => exact ⟨.runReset, rfl⟩
  case dspRunSpeed d => exact ⟨.runSpeed d, rfl⟩
  case dspEndReset => exact ⟨.endReset, rfl⟩
  case dspIgn p => exact ⟨.ign p, rfl⟩
  all_goals simp [admits, atNode] at h

theorem admits_accepted_ind {cfg : Cfg} {st : SessionState} {i : Instr}
    (h : admits cfg (.accepted .ind st) i = true) : ∃ op, i = indInstr op := by
  cases i
  case indReset => exact ⟨.reset, rfl⟩
  case indStartNt => exact ⟨.startNt, rfl⟩
  case indStartWt => exact ⟨.startWt, rfl⟩
  case indEnded => exact ⟨.ended, rfl⟩
  case indProg => exact ⟨.prog, rfl⟩
  case indProgAny p => exact ⟨.progAny p, rfl⟩
  case indIgn p => exact ⟨.ign p, rfl⟩
  all_goals simp [admits, atNode] at h

theorem admits_accepted_act {cfg : Cfg} {st : SessionState} {i : Instr}
    (h : admits cfg (.accepted .act st) i = true) : ∃ op, i = actInstr op := by
  cases i
  case actReset => exact ⟨.reset, rfl⟩
  case actEnded => exact ⟨.ended, rfl⟩
  case actSpeed d => exact ⟨.speed d, rfl⟩
  case actIgn p => exact ⟨.ign p, rfl⟩
  all_goals simp [admits, atNode] at h

theorem admits_accepted_inp {cfg : Cfg} {st : SessionState} {i : Instr}
    (h : admits cfg (.accepted .inp st) i = true) : ∃ p, i = .inpRx p := by
  cases i
  case inpRx p => exact ⟨p, rfl⟩
  all_goals simp [admits, atNode] at h

theorem admits_pressed {cfg : Cfg} {st : SessionState} {i : Instr}
    (h : admits cfg (.pressed st) i = true) : ∃ op, i = inpInstr op := by
  cases i
  case inpWake k => exact ⟨.wake k, rfl⟩
  case inpSpeed d => exact ⟨.speed d, rfl⟩
  case inpModeNt d => exact ⟨.modeNt d, rfl⟩
  case inpModeT => exact ⟨.modeT, rfl⟩
  case inpTDel => exact ⟨.tDel, rfl⟩
  case inpTOk => exact ⟨.tOk, rfl⟩
  case inpTDigit d => exact ⟨.tDigit d, rfl⟩
  case inpRunDigit d => exact ⟨.runDigit d, rfl⟩
  case inpRunReset => exact ⟨.runReset, rfl⟩
  case inpIgn k => exact ⟨.ign k, rfl⟩
  all_goals simp [admits, atNode] at h

theorem admits_heard {cfg : Cfg} {m : NodeId} {filter : Bool} {i : Instr}
    (h : admits cfg (.heard m filter) i = true) : ∃ c, i = charInstr m filter c := by
  cases i
  case rxa k b =>
    obtain rfl : m = k := by simp [admits] at h; tauto
    exact ⟨addrCh b, rfl⟩
  case rxdDrop k b =>
    obtain ⟨rfl, rfl⟩ : m = k ∧ filter = true := by simpa [admits] using h
    exact ⟨dataCh b, rfl⟩
  case rxdAcc k p =>
    obtain ⟨rfl, rfl⟩ : m = k ∧ filter = false := by simpa [admits] using h
    exact ⟨dataCh p, rfl⟩
  all_goals simp [admits, atNode] at h

theorem admits_sent {cfg : Cfg} {n : NodeId} {i : Instr} (h : admits cfg (.sent n) i = true) :
    ∃ a p, i = .send n a p := by
  cases i
  case send k a p =>
    obtain rfl : n = k := by simpa [admits] using h
    exact ⟨a, p, rfl⟩
  all_goals simp [admits, atNode] at h

theorem exists_payloadInstr {cfg : Cfg} {m : NodeId} {st : SessionState} {i : Instr} (hc : cfg.wf = true)
    (hw : i.wf cfg = true) (ha : admits cfg (.accepted m st) i = true) : ∃ p, payloadInstr cfg m st p = i := by
  cases m with
  | inp =>
    obtain ⟨p, rfl⟩ := admits_accepted_inp ha
    exact ⟨p, rfl⟩
  | dsp =>
    obtain ⟨op, rfl⟩ := admits_accepted_dsp ha
    obtain ⟨p, rfl⟩ := exists_selectDsp hc hw ha
    exact ⟨p, rfl⟩
  | ind =>
    obtain ⟨op, rfl⟩ := admits_accepted_ind ha
    obtain ⟨p, rfl⟩ := exists_selectInd hc hw ha
    exact ⟨p, rfl⟩
  | act =>
    obtain ⟨op, rfl⟩ := admits_accepted_act ha
    obtain ⟨p, rfl⟩ := exists_selectAct hc hw ha
    exact ⟨p, rfl⟩

/-- Every well-formed operation has bits that select it in a context its row admits. -/
theorem exists_selects {cfg : Cfg} {cx : Context} {i : Instr} (hc : cfg.wf = true) (hw : i.wf cfg = true)
    (ha : admits cfg cx i = true) : ∃ bs, Selects cfg cx bs i := by
  cases cx with
  | heard m filter =>
    obtain ⟨c, rfl⟩ := admits_heard ha
    exact ⟨_, c, rfl, rfl⟩
  | accepted m st =>
    obtain ⟨p, rfl⟩ := exists_payloadInstr hc hw ha
    exact ⟨_, p, rfl, rfl⟩
  | pressed st =>
    obtain ⟨op, rfl⟩ := admits_pressed ha
    obtain ⟨k, rfl⟩ := exists_selectKey hc hw ha
    exact ⟨_, k, rfl, rfl⟩
  | sent n =>
    obtain ⟨a, p, rfl⟩ := admits_sent ha
    exact ⟨_, a, p, rfl, of_decide_eq_true hw, rfl⟩

/-- The tables and the rows of the operation table give the same reading of bits. -/
theorem isRow_iff_selects {cfg : Cfg} {cx : Context} {bs : List Byte} {i : Instr} (hc : cfg.wf = true) :
    IsRow cfg cx i bs ↔ Selects cfg cx bs i := by
  refine ⟨fun ⟨hw, ha, he⟩ => ?_, isRow_of_selects hc⟩
  obtain ⟨bs', hsel⟩ := exists_selects hc hw ha
  obtain ⟨-, -, he'⟩ := isRow_of_selects hc hsel
  rw [he'] at he
  cases he
  exact hsel

/-! ## The round trips -/

/-- Settles O44: the operation's row gives bits that its table selects it by, and the decoder reads by the table. -/
theorem decodeAfterEncode : Obligations.DecodeAfterEncode := by
  intro cfg cx i rest hc hw ha
  obtain ⟨bs, hsel⟩ := exists_selects hc hw ha
  obtain ⟨-, -, he⟩ := isRow_of_selects hc hsel
  exact ⟨bs, he, decode_eq_ok_iff.mpr ⟨bs, hsel, rfl⟩⟩

/-- Settles O45: what the decoder reads is what the tables select, and its row has those bits. -/
theorem encodeAfterDecode : Obligations.EncodeAfterDecode := by
  intro cfg cx i bs rest hc h
  obtain ⟨pre, hsel, hbs⟩ := decode_eq_ok_iff.mp h
  obtain ⟨hw, ha, he⟩ := isRow_of_selects hc hsel
  exact ⟨hw, ha, pre, he, hbs⟩

/-- What some bits select is what they decode to, and the one operation whose row has them. -/
theorem decode_and_unique_row {cfg : Cfg} {cx : Context} {bs : List Byte} {i : Instr} (hc : cfg.wf = true)
    (h : Selects cfg cx bs i) : decode cfg cx bs = .ok (i, []) ∧ ∀ j, IsRow cfg cx j bs ↔ j = i := by
  refine ⟨decode_eq_ok_iff.mpr ⟨bs, h, (List.append_nil bs).symm⟩, fun j => ?_⟩
  rw [isRow_iff_selects hc]
  exact ⟨fun hj => selects_unique hj h, fun hj => hj ▸ h⟩

/-- Settles O46: the tables select an operation for every payload and every key, and no other row has those bits. -/
theorem everyPayloadSelectsOneOperation : Obligations.EveryPayloadSelectsOneOperation := by
  intro cfg m st p k hc
  exact ⟨⟨_, decode_and_unique_row (cx := .accepted m st) hc ⟨p, rfl, rfl⟩⟩,
    ⟨_, decode_and_unique_row (cx := .pressed st) hc ⟨k, rfl, rfl⟩⟩⟩

/-- Settles O43: each word is the bytes of its row, followed by nothing. -/
theorem tableWordsDecode : Obligations.TableWordsDecode :=
  ⟨rfl, rfl, rfl, rfl, rfl, rfl, rfl⟩

end Sys2Proof.Machine
end

section
/-! SUPPORT. Proofs of family 30_encoding: the transitions of the session state (R98). A handler makes one transition
at most; where the display handles a byte and a tick in one step, one of the two makes none. -/

namespace Sys2Proof.Machine

/-- The session state of node `n` stays, or makes one transition of its table (30_encoding R98). -/
def Listed (n : NodeId) (a b : SessionState) : Prop :=
  b = a ∨ transition n a b = true

/-- What a byte can do to the display's session: a transition into `TimerRunning` leaves messages to send. -/
def ByteMoves (s t : State) : Prop :=
  t.dsp.st = s.dsp.st
  ∨ transition .dsp s.dsp.st t.dsp.st = true ∧ (t.dsp.st = .timerRunning → t.idle .dsp = false)

/-- What a tick can do to the display's session: a running engine can end it, with messages to send. -/
def TickMoves (s t : State) : Prop :=
  t.dsp.st = s.dsp.st ∨ s.disp.ctRun = true ∧ t.dsp.st = .timerEnded ∧ t.idle .dsp = false

theorem listed_of_byteMoves {s t : State} (h : ByteMoves s t) : Listed .dsp s.dsp.st t.dsp.st :=
  h.imp_right And.left

/-- The engine runs in `TimerRunning` alone (41_display R151). -/
theorem listed_of_tickMoves {s t : State} (hs : RoleInv .dsp s) (h : TickMoves s t) :
    Listed .dsp s.dsp.st t.dsp.st := by
  obtain ⟨⟨-, hrun⟩, -⟩ := hs
  obtain he | ⟨hr, he, -⟩ := h
  · exact .inl he
  · exact .inr (by rw [he, hrun.mp hr]; rfl)

/-! ## The handlers of the four roles -/

theorem key_listed {k : Key} {s t : State} (h : exec (keyInstr s.cfg s.inp.st k) s = .next t) :
    Listed .inp s.inp.st t.inp.st := by
  obtain ⟨-, ha, -⟩ := selectKey_isRow s.cfg s.inp.st k
  unfold keyInstr at h ha
  generalize selectKey s.cfg s.inp.st k = op at h ha
  cases op <;> cases h <;> simp only [inpInstr, admits, decide_eq_true_eq, Context.pressed.injEq] at ha
  case wake | speed | modeNt | modeT | tOk => exact .inr (by rw [ha]; rfl)
  case runReset => exact .inr (by obtain ha | ha := ha <;> rw [ha] <;> rfl)
  case tDel | tDigit | runDigit | ign => exact .inl rfl

/-- `TimerRunning` is entered with the start messages (41_display R136). -/
theorem dspRx_byteMoves (p : Byte) (s : State) : ByteMoves s (dspRx p s) := by
  have hst := selectDsp_state s.cfg s.dsp.st p
  unfold dspRx
  generalize selectDsp s.cfg s.dsp.st p = op at hst ⊢
  cases op <;> simp only [dspRowState] at hst ⊢
  case wake | speed | modeNt | modeT | endReset => exact .inr ⟨by rw [hst]; rfl, nofun⟩
  case runReset => exact .inr ⟨by obtain hst | hst := hst <;> rw [hst] <;> rfl, nofun⟩
  case tOk => exact .inr ⟨by rw [hst]; rfl, fun _ => by simp [State.idle, dspTOk, bcastStart, send, message]⟩
  case tDigit d =>
    unfold dspTDigit
    split <;> exact .inl rfl
  case tDel | runSpeed | ign => exact .inl rfl

theorem indRx_listed (p : Byte) (s : State) : Listed .ind s.ind.st (indRx p s).ind.st := by
  have hst := selectInd_state s.cfg s.ind.st p
  unfold indRx
  generalize selectInd s.cfg s.ind.st p = op at hst ⊢
  cases op
  case reset =>
    have hnext : (indReset s).ind.st = .standby := by simp [indReset, Laws.clearFrame_eq, emit, setSt]
    exact .inr (by simp [transition, hnext])
  case startNt | startWt => exact .inr (by simp [transition, indStartNt, indStartWt, indStart, emit, setSt])
  case ended =>
    have hst : s.ind.st = .timerRunning := hst
    exact .inr (by rw [hst]; rfl)
  case prog | progAny | ign => exact .inl rfl

theorem actRx_listed (p : Byte) (s : State) : Listed .act s.act.st (actRx p s).act.st := by
  have hst := selectAct_state s.cfg s.act.st p
  unfold actRx
  generalize selectAct s.cfg s.act.st p = op at hst ⊢
  cases op
  case reset => exact .inr (by simp [transition, actReset, setDone_regs, setSt])
  case ended => exact .inr (by simp [transition, actEnded, setDone_regs, setSt, hst])
  case speed d =>
    simp only [actSpeed]
    split
    · next h => exact .inr (by rw [h]; rfl)
    · exact .inl rfl
  case ign => exact .inl rfl

theorem rx_listed (m : NodeId) (p : Byte) (s : State) : Listed m (s.node m).st ((rx m p s).node m).st := by
  cases m with
  | inp => exact .inl rfl
  | dsp => exact listed_of_byteMoves (dspRx_byteMoves p s)
  | ind => exact indRx_listed p s
  | act => exact actRx_listed p s

/-- The session ends with the end messages (41_display R147). -/
theorem dspTick_tickMoves (s : State) : TickMoves s (dspTick s) := by
  cases hrun : s.disp.ctRun with
  | false => exact .inl (by simp [dspTick, ctTick_stopped hrun])
  | true =>
    obtain he | ⟨bar, per, he⟩ | he := dspTick_cases s <;> rw [he]
    · exact .inr ⟨hrun, rfl, by simp [State.idle, dspFin, bcastEnded, send, message]⟩
    · refine .inl ?_
      rw [← ctTick_dsp s]
      cases bar <;> cases per <;> rfl
    · exact .inl (by rw [ctTick_dsp])

/-! ## The framer -/

theorem keepByte_st (m : NodeId) (b : Byte) (s : State) : ((keepByte m b s).node m).st = (s.node m).st := by
  unfold keepByte overrun
  split
  · split <;> simp [setRxBuf]
  · simp [setRxPend, setRxBuf]

theorem rxChar_listed (m : NodeId) (c : Char9) (s : State) : Listed m (s.node m).st ((rxChar m c s).node m).st := by
  have hfilter : ∀ v, ((setFilter m v s).node m).st = (s.node m).st := fun v => by simp [setFilter]
  unfold rxChar
  repeat' split
  · exact .inl rfl
  · exact .inl (hfilter _)
  · exact .inl (hfilter _)
  · unfold rxdAcc acceptByte
    rw [← hfilter true]
    split
    · exact rx_listed m _ _
    · exact .inl (keepByte_st m _ _)

theorem takeByte_listed (n : NodeId) (s : State) : Listed n (s.node n).st ((takeByte n s).node n).st := by
  unfold takeByte
  split
  · have hpend : ((setRxPend n false s).node n).st = (s.node n).st := by simp [setRxPend]
    rw [← hpend]
    exact rx_listed n _ _
  · exact .inl rfl

theorem takeByte_byteMoves (s : State) : ByteMoves s (takeByte .dsp s) := by
  unfold takeByte
  split
  · exact dspRx_byteMoves _ (setRxPend .dsp false s)
  · exact .inl rfl

theorem takeTick_tickMoves (s : State) : TickMoves s (takeTick s) := by
  unfold takeTick
  split
  · exact dspTick_tickMoves (modDisp (fun d => { d with ctPend := false }) s)
  · exact .inl rfl

/-- A byte that makes a transition leaves the engine stopped or the display busy, so the pending tick makes none. -/
theorem takeTick_takeByte_listed {s : State} (hw : s.cfg.wf = true) (h : RoleInv .dsp s) :
    Listed .dsp s.dsp.st (takeTick (takeByte .dsp s)).dsp.st := by
  have hmid := takeByte_roleInv hw h
  obtain he | ⟨htrans, hbusy⟩ := takeByte_byteMoves s
  · rw [← he]
    exact listed_of_tickMoves hmid (takeTick_tickMoves _)
  · suffices hst : (takeTick (takeByte .dsp s)).dsp.st = (takeByte .dsp s).dsp.st from .inr (by rwa [hst])
    obtain he | ⟨hr, -⟩ := takeTick_tickMoves (takeByte .dsp s)
    · exact he
    · obtain ⟨⟨-, hrun⟩, -⟩ := hmid
      rw [takeTick_of_busy (hbusy (hrun.mp hr))]

/-- A tick that ends the session leaves the display busy, so the pending byte waits on. -/
theorem takeByte_takeTick_listed {s : State} (h : RoleInv .dsp s) :
    Listed .dsp s.dsp.st (takeByte .dsp (takeTick s)).dsp.st := by
  have htick := takeTick_tickMoves s
  obtain he | ⟨-, -, hbusy⟩ := id htick
  · rw [← he]
    exact takeByte_listed .dsp (takeTick s)
  · rw [takeByte_of_busy hbusy]
    exact listed_of_tickMoves h htick

theorem idleEntry_listed {n : NodeId} {s : State} (hw : s.cfg.wf = true) (h : RoleInv n s) :
    Listed n (s.node n).st ((idleEntry n s).node n).st := by
  cases n with
  | inp => exact takeByte_listed .inp s
  | ind => exact takeByte_listed .ind s
  | act => exact takeByte_listed .act s
  | dsp =>
    obtain ⟨k, he | he⟩ := idleEntry_dsp_cases s <;> rw [he]
    · exact takeTick_takeByte_listed (s := { s with free := k }) hw h
    · exact takeByte_takeTick_listed (s := { s with free := k }) h

/-! ## One step at one node -/

theorem dcTick_st (s : State) : (dcTick s).act.st = s.act.st := by
  unfold dcTick
  split
  · simp [Laws.setActEn_eq]
  · rfl

/-- Everything a step can do at a node makes one transition at most, but for power-on reset of the node. -/
theorem nodeStep_listed {m : NodeId} {i : Input} {s t : State} (hw : s.cfg.wf = true) (h : NodeStep m i s t)
    (hs : RoleInv m s) :
    Listed m (s.node m).st (t.node m).st
    ∨ ((t.node m).st = .standby ∧ (i = .ev (.resetOn m) ∨ i = .ev (.resetOff m))) := by
  cases h with
  | untouched _ h =>
    obtain ⟨hnode, -, -⟩ := h
    exact .inl (.inl (by rw [hnode]))
  | hears c _ h =>
    obtain ⟨hnode, -, -⟩ := h
    rw [hnode]
    exact .inl (rxChar_listed m c s)
  | @sends _ _ u _ c rest hq hu ht =>
    have hrole : RoleInv m u := roleInv_congr hu (dropHead_roleInv hq hs)
    have hwu : u.cfg.wf = true := by rwa [agreesAt_cfg hu, modNode_cfg]
    obtain ⟨hnode, -, -⟩ := hu
    have hst : (u.node m).st = (s.node m).st := by rw [hnode, modNode_node_same]; rfl
    rw [← hst, ht]
    left
    split
    · exact idleEntry_listed hwu hrole
    · exact .inl rfl
  | accepts p => exact .inl (rx_listed m p s)
  | keeps p => exact .inl (.inl (keepByte_st m p s))
  | key k _ h => exact .inl (key_listed h)
  | tick => exact .inl (listed_of_tickMoves hs (dspTick_tickMoves s))
  | keepsTick => exact .inl (.inl rfl)
  | duty => exact .inl (.inl (dcTick_st s))
  | blink =>
    unfold indBlink
    split <;> exact .inl (.inl rfl)
  | frame =>
    unfold indFrame
    split <;> exact .inl (.inl rfl)
  | held => exact .inr ⟨by rw [holdReset, modNode_node_same]; rfl, .inl rfl⟩
  | released hrst => exact .inr ⟨by rw [releaseReset, if_pos hrst, modNode_node_same]; rfl, .inr rfl⟩

/-- Settles O55: a step at a node makes one transition at most, from a state in which the display's engine runs in
`TimerRunning` alone. -/
theorem onlyTheListedTransitions : Obligations.OnlyTheListedTransitions := by
  intro s t n hs h
  have hread := nextInput_agrees n s
  have hw : (nextInput s).2.cfg.wf = true := by
    rw [agreesAt_cfg hread]
    exact step_wf h
  obtain ⟨hrole, -⟩ := nodeInv_congr hread ((inv_iff_nodeInv s).mp hs n)
  have hstep := nodeStep_listed hw (step_nodeStep h n) hrole
  obtain ⟨hnode, -, -⟩ := hread
  rwa [hnode, Listed, or_assoc] at hstep

end Sys2Proof.Machine
end

section
/-! SUPPORT. Laws of the framer used by family 40_framer: what a reception does in each case (40_framer R113 to
R117), a slot cut at the instant its queue is shortened (R112), IDLE_ENTRY by what is pending (R118), and which
operations write a filter (10_state R23). -/

namespace Sys2Proof.Machine

/-! ## Changing one node -/

theorem modNode_onlyNode (m : NodeId) (f : Node → Node) (s : State) : onlyNode m s (modNode m f s) :=
  ⟨fun _ hk => modNode_node_ne hk f s, by simp, by simp, by simp, by simp, by simp, by simp, by simp⟩

theorem setFilter_of_eq {m : NodeId} {v : Bool} {s : State} (h : (s.node m).filter = v) : setFilter m v s = s := by
  subst h
  cases m <;> rfl

@[simp] theorem setFilter_setFilter (m : NodeId) (v w : Bool) (s : State) :
    setFilter m v (setFilter m w s) = setFilter m v s := by
  cases m <;> rfl

@[simp] theorem setFilter_node_same (m : NodeId) (v : Bool) (s : State) :
    (setFilter m v s).node m = { s.node m with filter := v } :=
  modNode_node_same _ _ s

@[simp] theorem setFilter_idle (m k : NodeId) (v : Bool) (s : State) : (setFilter m v s).idle k = s.idle k := by
  cases m <;> cases k <;> rfl

@[simp] theorem setFilter_cfg (m : NodeId) (v : Bool) (s : State) : (setFilter m v s).cfg = s.cfg :=
  modNode_cfg _ _ s

/-! ## A data character at an open filter (40_framer R116, R117) -/

theorem rxdAcc_of_idle {m : NodeId} {s : State} (p : Byte) (h : s.idle m = true) :
    rxdAcc m p s = rx m p (setFilter m true s) := by
  simp [rxdAcc, acceptByte, h]

theorem rxdAcc_of_busy {m : NodeId} {s : State} (p : Byte) (h : s.idle m = false) :
    rxdAcc m p s = keepByte m p (setFilter m true s) := by
  simp [rxdAcc, acceptByte, h]

/-- A busy node with nothing pending keeps the byte. -/
theorem rxdAcc_of_busy_empty {m : NodeId} {s : State} (p : Byte) (hbusy : s.idle m = false)
    (hpend : (s.node m).rxPend = false) :
    rxdAcc m p s = modNode m (fun x => { x with filter := true, rxPend := true, rxBuf := p }) s := by
  rw [rxdAcc_of_busy p hbusy, keepByte, if_neg (by simp [hpend])]
  cases m <;> rfl

theorem rxdAcc_of_busy_keepOld {m : NodeId} {s : State} (p : Byte) (hbusy : s.idle m = false)
    (hpend : (s.node m).rxPend = true) (ho : s.cfg.rxOverrun = .keepOld) : rxdAcc m p s = setFilter m true s := by
  rw [rxdAcc_of_busy p hbusy, keepByte, if_pos (by simp [hpend])]
  simp [overrun, ho]

theorem rxdAcc_of_busy_keepNew {m : NodeId} {s : State} (p : Byte) (hbusy : s.idle m = false)
    (hpend : (s.node m).rxPend = true) (ho : s.cfg.rxOverrun = .keepNew) :
    rxdAcc m p s = modNode m (fun x => { x with filter := true, rxBuf := p }) s := by
  rw [rxdAcc_of_busy p hbusy, keepByte, if_pos (by simp [hpend])]
  simp only [overrun, setFilter_cfg, ho]
  cases m <;> rfl

/-! ## Reception by the character (40_framer R113) -/

theorem rxChar_of_rst {m : NodeId} {s : State} (c : Char9) (h : (s.node m).rst = true) : rxChar m c s = s := by
  simp [rxChar, h]

theorem rxChar_addrCh {m : NodeId} {s : State} (a : Byte) (h : (s.node m).rst = false) :
    rxChar m (addrCh a) s = setFilter m (decide (a ≠ s.cfg.addr m)) s := by
  simp only [rxChar, h, addrCh, rxa]
  rfl

theorem rxChar_dataCh {m : NodeId} {s : State} (p : Byte) (h : (s.node m).rst = false) :
    rxChar m (dataCh p) s = if (s.node m).filter then s else rxdAcc m p s := by
  simp only [rxChar, h, dataCh, rxdDrop]
  cases hf : (s.node m).filter with
  | true => exact setFilter_of_eq hf
  | false => rfl

/-- The addressee of a message, idle, runs its payload's operation (40_framer R114, R116). -/
theorem rxChar_message_addressee {m : NodeId} {s : State} (p : Byte) (hrst : (s.node m).rst = false)
    (hidle : s.idle m = true) :
    rxChar m (dataCh p) (rxChar m (addrCh (s.cfg.addr m)) s) = rx m p (setFilter m true s) := by
  rw [rxChar_addrCh _ hrst, rxChar_dataCh p (by simp [hrst]), if_neg (by simp), rxdAcc_of_idle p (by simp [hidle]),
    setFilter_setFilter]

/-- Whom a message does not name, it leaves with a closed filter (40_framer R114, R115). -/
theorem rxChar_message_other {k : NodeId} {s : State} {a : Byte} (p : Byte) (hrst : (s.node k).rst = false)
    (ha : a ≠ s.cfg.addr k) : rxChar k (dataCh p) (rxChar k (addrCh a) s) = setFilter k true s := by
  rw [rxChar_addrCh a hrst, rxChar_dataCh p (by simp [hrst]), if_pos (by simpa using ha)]
  simp [ha]

/-- The four addresses of a well-formed build differ (00_scope R8). -/
theorem addr_injective {cfg : Cfg} (hw : cfg.wf = true) : Function.Injective cfg.addr := by
  have hnodup : [cfg.addrInp, cfg.addrDsp, cfg.addrInd, cfg.addrAct].Nodup := by
    simp only [Cfg.wf, Bool.and_eq_true, decide_eq_true_eq] at hw
    tauto
  intro m k h
  cases m <;> cases k <;> simp_all [Cfg.addr]

/-! ## The slot before IDLE_ENTRY (40_framer R112) -/

theorem othersTransmit_iff {n : NodeId} {s : State} :
    othersTransmit n s = true ↔ ∃ m, m ≠ n ∧ (s.node m).txEn = true := by
  have hall : ∀ m, m ∈ allNodes := by intro m; cases m <;> decide
  simp [othersTransmit, hall]

theorem exec_txc_of_quiet {n : NodeId} {c : Char9} {rest : List Char9} {s : State} (hq : (s.node n).txq = c :: rest)
    (hquiet : ∀ m, m ≠ n → (s.node m).txEn = false) : exec (.txc n) s = .next (slot n c rest s) := by
  have hothers : ¬ othersTransmit n s = true := by
    rw [othersTransmit_iff]
    rintro ⟨m, hm, henabled⟩
    simp [hquiet m hm] at henabled
  simp [exec, execTxc, hq, hothers]

theorem exec_txc_of_contention {n m : NodeId} {s : State} (hm : m ≠ n) (henabled : (s.node m).txEn = true)
    (hq : (s.node n).txq ≠ []) : exec (.txc n) s = .fault .busContention := by
  have hothers : othersTransmit n s = true := othersTransmit_iff.mpr ⟨m, hm, henabled⟩
  obtain ⟨c, rest, hq⟩ := List.exists_cons_of_ne_nil hq
  simp [exec, execTxc, hq, hothers]

theorem exec_txc_of_empty {n : NodeId} {s : State} (hq : (s.node n).txq = []) : exec (.txc n) s = .next s := by
  simp [exec, execTxc, hq]

/-- The state in which a slot of node `n` has delivered `c` and left `rest` in the queue, before IDLE_ENTRY. -/
def sent (n : NodeId) (c : Char9) (rest : List Char9) (s : State) : State :=
  setTxq n rest (setTxEn n false (deliver n c (setTxEn n true s)))

theorem slot_eq_sent (n : NodeId) (c : Char9) (rest : List Char9) (s : State) :
    slot n c rest s = if rest = [] then idleEntry n (sent n c rest s) else sent n c rest s := rfl

theorem slot_local_sent (n : NodeId) (c : Char9) (rest : List Char9) (s : State) :
    localTo n (sent n c rest s) (slot n c rest s) := by
  rw [slot_eq_sent]
  split
  · exact idleEntry_local n _
  · exact localTo_refl n _

theorem sent_agrees_own (n : NodeId) (c : Char9) (rest : List Char9) (s : State) :
    agreesAt n (modNode n (dropHead rest) s) (sent n c rest s) := by
  have hdeliver := deliver_agrees n n c (setTxEn n true s)
  rw [if_pos rfl] at hdeliver
  have hdrop : setTxq n rest (setTxEn n false (setTxEn n true s)) = modNode n (dropHead rest) s := by
    cases n <;> rfl
  exact hdrop ▸ modNode_agrees _ (modNode_agrees _ hdeliver)

theorem sent_agrees_other {m n : NodeId} (hmn : m ≠ n) (c : Char9) (rest : List Char9) (s : State) :
    agreesAt m (rxChar m c s) (sent n c rest s) :=
  agreesAt_trans (slot_agrees_other hmn c rest s) (agreesAt_symm (agreesAt_of_local hmn (slot_local_sent n c rest s)))

/-- The model's script and free counter are the same in both states. -/
abbrev SameSchedule (s t : State) : Prop :=
  t.inputs = s.inputs ∧ t.free = s.free

theorem sameSchedule_trans {s t u : State} (h1 : SameSchedule s t) (h2 : SameSchedule t u) : SameSchedule s u :=
  ⟨h2.1.trans h1.1, h2.2.trans h1.2⟩

theorem modNode_sameSchedule (m : NodeId) (f : Node → Node) (s : State) : SameSchedule s (modNode m f s) :=
  ⟨modNode_inputs m f s, modNode_free m f s⟩

theorem keepByte_sameSchedule (m : NodeId) (b : Byte) (s : State) : SameSchedule s (keepByte m b s) := by
  unfold keepByte overrun
  split
  · split
    · exact ⟨rfl, rfl⟩
    · exact modNode_sameSchedule m _ s
  · exact sameSchedule_trans (modNode_sameSchedule m _ s) (modNode_sameSchedule m _ _)

theorem rx_sameSchedule (m : NodeId) (p : Byte) (s : State) : SameSchedule s (rx m p s) := by
  obtain ⟨-, -, hinputs, hfree, -⟩ := rx_frame m p s
  exact ⟨hinputs, hfree⟩

theorem rxChar_sameSchedule (m : NodeId) (c : Char9) (s : State) : SameSchedule s (rxChar m c s) := by
  have hfilter (v : Bool) : SameSchedule s (setFilter m v s) := modNode_sameSchedule m _ s
  unfold rxChar rxa rxdDrop rxdAcc acceptByte
  repeat' split
  · exact ⟨rfl, rfl⟩
  · exact hfilter _
  · exact hfilter _
  · exact sameSchedule_trans (hfilter true) (rx_sameSchedule ..)
  · exact sameSchedule_trans (hfilter true) (keepByte_sameSchedule ..)

theorem deliver_sameSchedule (n : NodeId) (c : Char9) (s : State) : SameSchedule s (deliver n c s) := by
  refine List.foldlRecOn (motive := SameSchedule s) allNodes _ ⟨rfl, rfl⟩ fun t ht m _ => ?_
  split
  · exact ht
  · exact sameSchedule_trans ht (rxChar_sameSchedule m c t)

theorem sent_sameSchedule (n : NodeId) (c : Char9) (rest : List Char9) (s : State) :
    SameSchedule s (sent n c rest s) := by
  simpa [SameSchedule, sent, setTxq, setTxEn] using deliver_sameSchedule n c (setTxEn n true s)

/-- What a slot does before IDLE_ENTRY (40_framer R112, R113, R120). -/
theorem sent_afterSlot (n : NodeId) (c : Char9) (rest : List Char9) (s : State) :
    afterSlot n c rest s (sent n c rest s) := by
  obtain ⟨hnode, hrole, hcfg⟩ := sent_agrees_own n c rest s
  obtain ⟨hinputs, hfree⟩ := sent_sameSchedule n c rest s
  refine ⟨hnode.trans (modNode_node_same ..), sameRole_trans (modNode_sameRole ..) hrole, ?_, ?_,
    hcfg.trans (modNode_cfg ..), hinputs, hfree⟩
  · intro m hm hrst
    obtain ⟨hnode, hrole, -⟩ := sent_agrees_other hm c rest s
    rw [rxChar_of_rst c hrst] at hnode hrole
    exact ⟨hnode, hrole⟩
  · intro m hm hrst
    obtain ⟨hnode, hrole, -⟩ := sent_agrees_other hm c rest s
    exact ⟨rxChar m c s, Laws.exec_charInstr m c s hrst, hnode, hrole⟩

/-! ## IDLE_ENTRY by what is pending (40_framer R118, 60_exceptions R259) -/

theorem takeByte_of_none {n : NodeId} {s : State} (h : (s.node n).rxPend = false) : takeByte n s = s := by
  simp [takeByte, h]

theorem takeByte_of_pending {n : NodeId} {s : State} (hidle : s.idle n = true) (h : (s.node n).rxPend = true) :
    takeByte n s = rxh n s := by
  simp [takeByte, hidle, h]

theorem takeTick_of_none {s : State} (h : s.disp.ctPend = false) : takeTick s = s := by
  simp [takeTick, h]

theorem takeTick_of_pending {s : State} (hidle : s.idle .dsp = true) (h : s.disp.ctPend = true) :
    takeTick s = pendingTick s := by
  simp [takeTick, hidle, h]

theorem rxh_ctPend (n : NodeId) (s : State) : (rxh n s).disp.ctPend = s.disp.ctPend := by
  obtain ⟨-, -, -, -, -, -, -, -, -, htick⟩ := rx_frame n (s.node n).rxBuf (setRxPend n false s)
  exact htick.trans (by simp [setRxPend])

theorem pendingTick_rxPend (s : State) : (pendingTick s).dsp.rxPend = s.dsp.rxPend := by
  obtain ⟨-, -, -, -, -, -, -, hbyte, -, -⟩ := dspTick_frame (modDisp (fun d => { d with ctPend := false }) s)
  exact hbyte

theorem idleEntry_dsp_of_one {s : State} (h : s.dsp.rxPend = false ∨ s.disp.ctPend = false) :
    idleEntry .dsp s = takeTick (takeByte .dsp s) := by
  obtain h | h := h <;> simp [idleEntry, h]

theorem idleEntry_dsp_of_both {s : State} (hbyte : s.dsp.rxPend = true) (htick : s.disp.ctPend = true) :
    idleEntry .dsp s = handleBoth (Config.freeChoice s.free) { s with free := s.free + 1 } := by
  simp [idleEntry, hbyte, htick]

/-- With no tick pending at the display, IDLE_ENTRY is the handling of the pending byte. -/
theorem idleEntry_of_no_tick {n : NodeId} {s : State} (htick : n = .dsp → s.disp.ctPend = false) :
    idleEntry n s = takeByte n s := by
  cases n with
  | inp | ind | act => rfl
  | dsp =>
    have hnone : s.disp.ctPend = false := htick rfl
    have hlater : (takeByte .dsp s).disp.ctPend = false := by
      unfold takeByte
      split
      · exact (rxh_ctPend .dsp s).trans hnone
      · exact hnone
    rw [idleEntry_dsp_of_one (.inr hnone), takeTick_of_none hlater]

theorem idleEntry_of_none {n : NodeId} {s : State} (hbyte : (s.node n).rxPend = false)
    (htick : n = .dsp → s.disp.ctPend = false) : idleEntry n s = s := by
  rw [idleEntry_of_no_tick htick, takeByte_of_none hbyte]

theorem idleEntry_of_byte {n : NodeId} {s : State} (hidle : s.idle n = true) (hbyte : (s.node n).rxPend = true)
    (htick : n = .dsp → s.disp.ctPend = false) : idleEntry n s = rxh n s := by
  rw [idleEntry_of_no_tick htick, takeByte_of_pending hidle hbyte]

theorem idleEntry_of_tick {s : State} (hidle : s.idle .dsp = true) (hbyte : s.dsp.rxPend = false)
    (htick : s.disp.ctPend = true) : idleEntry .dsp s = pendingTick s := by
  rw [idleEntry_dsp_of_one (.inl hbyte), takeByte_of_none (n := .dsp) hbyte, takeTick_of_pending hidle htick]

/-- Both pending, the byte first: the tick follows if the byte leaves the display idle. -/
theorem handleBoth_byteFirst {s : State} (hidle : s.idle .dsp = true) (hbyte : s.dsp.rxPend = true)
    (htick : s.disp.ctPend = true) :
    ((rxh .dsp s).idle .dsp = true → handleBoth true s = pendingTick (rxh .dsp s))
    ∧ ((rxh .dsp s).idle .dsp = false → handleBoth true s = rxh .dsp s) := by
  have hfirst : takeByte .dsp s = rxh .dsp s := takeByte_of_pending hidle hbyte
  have hkept : (rxh .dsp s).disp.ctPend = true := (rxh_ctPend .dsp s).trans htick
  simp only [handleBoth, hfirst]
  exact ⟨fun hu => takeTick_of_pending hu hkept, takeTick_of_busy⟩

/-- Both pending, the tick first: the byte follows if the tick leaves the display idle. -/
theorem handleBoth_tickFirst {s : State} (hidle : s.idle .dsp = true) (hbyte : s.dsp.rxPend = true)
    (htick : s.disp.ctPend = true) :
    ((pendingTick s).idle .dsp = true → handleBoth false s = rxh .dsp (pendingTick s))
    ∧ ((pendingTick s).idle .dsp = false → handleBoth false s = pendingTick s) := by
  have hfirst : takeTick s = pendingTick s := takeTick_of_pending hidle htick
  have hkept : (pendingTick s).dsp.rxPend = true := (pendingTick_rxPend s).trans hbyte
  simp only [handleBoth, hfirst]
  exact ⟨fun hu => takeByte_of_pending hu hkept, takeByte_of_busy⟩

/-- What loses the head of its queue alone keeps its pending events. -/
theorem pending_of_dropHead {n : NodeId} {rest : List Char9} {s u : State}
    (h : agreesAt n (modNode n (dropHead rest) s) u) :
    (u.node n).rxPend = (s.node n).rxPend ∧ (n = .dsp → u.disp.ctPend = s.disp.ctPend) := by
  obtain ⟨hnode, hrole, -⟩ := h
  refine ⟨by rw [hnode, modNode_node_same]; rfl, ?_⟩
  rintro rfl
  exact congrArg DisplayRegs.ctPend hrole

/-- A slot of a sender with nothing pending costs it the head of its queue alone. -/
theorem slot_agrees_own_of_none {n : NodeId} {s : State} (c : Char9) (rest : List Char9)
    (hbyte : (s.node n).rxPend = false) (htick : n = .dsp → s.disp.ctPend = false) :
    agreesAt n (modNode n (dropHead rest) s) (slot n c rest s) := by
  have hown := sent_agrees_own n c rest s
  obtain ⟨hb, ht⟩ := pending_of_dropHead hown
  have hentry : idleEntry n (sent n c rest s) = sent n c rest s :=
    idleEntry_of_none (hb.trans hbyte) fun hn => (ht hn).trans (htick hn)
  rw [slot_eq_sent, hentry, ite_self]
  exact hown

/-! ## Two slots: a message (40_framer R123) -/

theorem execAll_two_slots {n : NodeId} {c d : Char9} {s : State} (hquiet : ∀ m, (s.node m).txEn = false)
    (hq : (s.node n).txq = [c, d]) :
    execAll [.txc n, .txc n] s = .next (slot n d [] (slot n c [d] s)) := by
  have hfirst := exec_txc_of_quiet hq fun m _ => hquiet m
  have hquiet' : ∀ m, m ≠ n → ((slot n c [d] s).node m).txEn = false := by
    intro m hm
    obtain ⟨hnode, -, -⟩ := slot_agrees_other hm c [d] s
    rw [hnode, (rxChar_pins m c s).2, hquiet m]
  have hq' : ((slot n c [d] s).node n).txq = [d] := by
    obtain ⟨hnode, -, -⟩ := sent_agrees_own n c [d] s
    exact congrArg Node.txq (hnode.trans (modNode_node_same ..))
  rw [execAll_cons_of_next hfirst, execAll_cons_of_next (exec_txc_of_quiet hq' hquiet'), execAll]

theorem two_slots_agree_other {k n : NodeId} (hk : k ≠ n) (c d : Char9) (s : State) :
    agreesAt k (rxChar k d (rxChar k c s)) (slot n d [] (slot n c [d] s)) :=
  agreesAt_trans (rxChar_agrees k d (slot_agrees_other hk c [d] s)) (slot_agrees_other hk d [] _)

theorem two_slots_agree_own {n : NodeId} {s : State} (c d : Char9) (hbyte : (s.node n).rxPend = false)
    (htick : n = .dsp → s.disp.ctPend = false) :
    agreesAt n (modNode n (dropHead []) s) (slot n d [] (slot n c [d] s)) := by
  have hfirst := slot_agrees_own_of_none c [d] hbyte htick
  obtain ⟨hb, ht⟩ := pending_of_dropHead hfirst
  have hsecond := slot_agrees_own_of_none d [] (hb.trans hbyte) fun hn => (ht hn).trans (htick hn)
  have htwice : modNode n (dropHead []) (modNode n (dropHead [d]) s) = modNode n (dropHead []) s := by
    cases n <;> rfl
  exact htwice ▸ agreesAt_trans (modNode_agrees _ hfirst) hsecond

/-! ## Who writes a filter (10_state R23, 40_framer R125) -/

theorem filter_of_frame {m : NodeId} {s t : State} (h : handlerFrame m s t) (k : NodeId) :
    (t.node k).filter = (s.node k).filter := by
  obtain ⟨hothers, -, -, -, -, hfilter, -⟩ := h
  by_cases hk : k = m
  · exact hk ▸ hfilter
  · rw [(hothers k hk).1]

theorem filter_of_local {m k : NodeId} {s t : State} (hk : k ≠ m) (h : localTo m s t) :
    (t.node k).filter = (s.node k).filter := by
  rw [(h.1 k hk).1]

theorem rxh_filter (n k : NodeId) (s : State) : ((rxh n s).node k).filter = (s.node k).filter := by
  refine (filter_of_frame (rx_frame n _ (setRxPend n false s)) k).trans ?_
  cases n <;> cases k <;> rfl

theorem takeByte_filter (n k : NodeId) (s : State) : ((takeByte n s).node k).filter = (s.node k).filter := by
  unfold takeByte
  split
  · exact rxh_filter n k s
  · rfl

theorem takeTick_filter (k : NodeId) (s : State) : ((takeTick s).node k).filter = (s.node k).filter := by
  unfold takeTick
  split
  · exact (filter_of_frame (dspTick_frame _) k).trans (by simp)
  · rfl

theorem idleEntry_filter (n : NodeId) (s : State) : ((idleEntry n s).node n).filter = (s.node n).filter := by
  cases n with
  | inp | ind | act => exact takeByte_filter ..
  | dsp =>
    obtain ⟨j, he | he⟩ := idleEntry_dsp_cases s <;> rw [he]
    · exact (takeTick_filter ..).trans (takeByte_filter ..)
    · exact (takeByte_filter ..).trans (takeTick_filter ..)

/-- The sender does not hear its own slot (40_framer R120). -/
theorem slot_filter_own (n : NodeId) (c : Char9) (rest : List Char9) (s : State) :
    ((slot n c rest s).node n).filter = (s.node n).filter := by
  obtain ⟨u, ⟨hnode, -, -⟩, hslot⟩ := slot_agrees_own n c rest s
  have hu : (u.node n).filter = (s.node n).filter := by rw [hnode, modNode_node_same]; rfl
  rw [hslot]
  split
  · exact (idleEntry_filter n u).trans hu
  · exact hu

/-- Only a slot and the reception of a character write a filter. -/
theorem exec_filter {i : Instr} {s t : State} (k : NodeId) (h : exec i s = .next t) (htxc : ∀ n, i ≠ .txc n)
    (hrxa : ∀ b, i ≠ .rxa k b) (hdrop : ∀ b, i ≠ .rxdDrop k b) (hacc : ∀ b, i ≠ .rxdAcc k b) :
    (t.node k).filter = (s.node k).filter := by
  cases i
  case txc n => exact absurd rfl (htxc n)
  all_goals cases h
  case rxa m b => exact filter_of_local (by rintro rfl; exact hrxa b rfl) (modNode_local m _ s)
  case rxdDrop m b => exact filter_of_local (by rintro rfl; exact hdrop b rfl) (modNode_local m _ s)
  case rxdAcc m b => exact filter_of_local (by rintro rfl; exact hacc b rfl) (rxdAcc_local m b s)
  case rxh n => exact rxh_filter n k s
  case send => exact filter_of_frame (send_frame _ _ _ s) k
  case dspTDigit => exact filter_of_frame (dspTDigit_frame _ s) k
  case dspTick => exact filter_of_frame (dspTick_frame s) k
  case dspSec => exact filter_of_frame (dspSec_frame _ _ s) k
  case ctTick => exact filter_of_frame (ctTick_frame s) k
  case ctSecond => exact filter_of_frame (ctSecond_frame s) k
  case ctProgress => exact filter_of_frame (ctProgress_frame _ s) k
  case dcStop => exact filter_of_frame (dcStop_frame s) k
  case dcTick | actTick => exact filter_of_frame (dcTick_frame s) k
  case indReset => exact filter_of_frame (indReset_frame s) k
  case indBlink => exact filter_of_frame (indBlink_frame s) k
  case indFrame => exact filter_of_frame (indFrame_frame s) k
  case actReset =>
    exact filter_of_frame (handlerFrame_trans (handlerFrame_trans (handlerFrame_trans (dcStop_frame s)
      (setSt_frame _ _ _)) (modActr_frame _ _)) (setDone_frame _ _)) k
  case actEnded =>
    exact filter_of_frame (handlerFrame_trans (handlerFrame_trans (dcStop_frame s) (setSt_frame _ _ _))
      (setDone_frame _ _)) k
  case actSpeed => exact filter_of_frame (actSpeed_frame _ s) k
  all_goals cases k <;> rfl

end Sys2Proof.Machine
end

section
/-! SUPPORT. Proofs of family 40_framer: sending, reception, the slot and IDLE_ENTRY (40_framer R110 to R125). -/

namespace Sys2Proof.Machine

/-- Settles O3: SEND is one change of the node's queue. -/
theorem sendAppendsMessage : Obligations.SendAppendsMessage := by
  intro n a p s
  refine ⟨⟨send n a p s, rfl, modNode_node_same .., modNode_onlyNode n _ s, ?_⟩, by simp [Instr.wf]⟩
  simp [State.idle, send_txq, message]

/-- Settles O4: RXA is one change of the filter, RXD.DROP writes the value the filter has. -/
theorem filterSelectsTheReceiver : Obligations.FilterSelectsTheReceiver := by
  intro m b s
  refine ⟨rfl, ⟨rxa m b s, rfl, modNode_onlyNode m _ s, fun h => ?_, fun h => ?_⟩, fun hclosed => ⟨?_, ?_⟩⟩
  · rw [rxa, setFilter_node_same, decide_eq_false (not_not_intro h)]
  · rw [rxa, setFilter_node_same, decide_eq_true h]
  · simp [charInstr, hclosed]
  · exact congrArg _ (setFilter_of_eq hclosed)

/-- Settles O5: the cases of RXD.ACC by the state of the receiver. -/
theorem openFilterAcceptsData : Obligations.OpenFilterAcceptsData := by
  intro m b s hopen
  have hrun : exec (.rxdAcc m b) s = .next (rxdAcc m b s) := rfl
  refine ⟨by simp [charInstr, hopen], fun hidle => ⟨?_, _, hrun⟩, fun hbusy hpend => ?_,
    fun hbusy hpend ho => ?_, fun hbusy hpend ho => ?_⟩
  · have hpayload := Laws.exec_payloadInstr m b (setFilter m true s)
    rw [setFilter_cfg, setFilter_node_same] at hpayload
    rw [hpayload, hrun, rxdAcc_of_idle b hidle]
  · rw [rxdAcc_of_busy_empty b hbusy hpend] at hrun
    exact ⟨_, hrun, modNode_onlyNode m _ s, modNode_node_same ..⟩
  · rw [rxdAcc_of_busy_keepOld b hbusy hpend ho] at hrun
    exact ⟨_, hrun, modNode_onlyNode m _ s, modNode_node_same ..⟩
  · rw [rxdAcc_of_busy_keepNew b hbusy hpend ho] at hrun
    exact ⟨_, hrun, modNode_onlyNode m _ s, modNode_node_same ..⟩

/-- Settles O6: RXH is the receive handler, which runs the operation its table selects. -/
theorem pendingByteIsHandled : Obligations.PendingByteIsHandled := by
  intro n s
  have hpayload := Laws.exec_payloadInstr n (s.node n).rxBuf (setRxPend n false s)
  rw [setRxPend, modNode_cfg, modNode_node_same] at hpayload
  exact ⟨hpayload.symm, _, rfl⟩

/-- Settles O7: a slot is its part before IDLE_ENTRY, and IDLE_ENTRY touches the sender alone. -/
theorem slotReachesEveryOtherNode : Obligations.SlotReachesEveryOtherNode := by
  intro n c rest s hq hquiet
  refine ⟨sent n c rest s, slot n c rest s, sent_afterSlot n c rest s, exec_txc_of_quiet hq hquiet,
    fun hrest => ?_, (slot_local_sent n c rest s).1, slot_filter_own n c rest s⟩
  rw [slot_eq_sent, if_neg hrest]

/-- Settles O8: after the last character the sender is idle with the pending events it had before, and IDLE_ENTRY
handles them. -/
theorem lastSlotEndsInIdleEntry : Obligations.LastSlotEndsInIdleEntry := by
  intro n c s hq hquiet
  obtain ⟨hbyte, htick⟩ := pending_of_dropHead (sent_agrees_own n c [] s)
  have ⟨hnode, _, _, _, _, _, hfree⟩ := sent_afterSlot n c [] s
  have hrun : exec (.txc n) s = .next (idleEntry n (sent n c [] s)) := exec_txc_of_quiet hq hquiet
  have hidle : (sent n c [] s).idle n = true := idle_iff.mpr (by rw [hnode])
  refine ⟨sent n c [] s, sent_afterSlot n c [] s, fun hb ht => ?_, fun hb ht => ?_, ?_, ?_, _, hrun⟩
  · rw [hrun, idleEntry_of_none (hbyte.trans hb) fun hn => (htick hn).trans (ht hn)]
  · rw [hrun, idleEntry_of_byte hidle (hbyte.trans hb) fun hn => (htick hn).trans (ht hn)]
    rfl
  · rintro rfl hb ht
    rw [hrun, idleEntry_of_tick hidle (hbyte.trans hb) ((htick rfl).trans ht)]
    rfl
  · rintro rfl hb ht
    have hb : (sent .dsp c [] s).dsp.rxPend = true := hbyte.trans hb
    have ht : (sent .dsp c [] s).disp.ctPend = true := (htick rfl).trans ht
    rw [hrun, idleEntry_dsp_of_both hb ht, hfree]
    cases Config.freeChoice s.free with
    | true =>
      obtain ⟨hthen, hstop⟩ := handleBoth_byteFirst (s := { sent .dsp c [] s with free := s.free + 1 }) hidle hb ht
      rw [if_pos rfl]
      exact ⟨_, rfl, fun hu => congrArg _ (hthen hu), fun hu => congrArg _ (hstop hu)⟩
    | false =>
      obtain ⟨hthen, hstop⟩ := handleBoth_tickFirst (s := { sent .dsp c [] s with free := s.free + 1 }) hidle hb ht
      rw [if_neg Bool.false_ne_true]
      exact ⟨_, rfl, fun hu => congrArg _ (hthen hu), fun hu => congrArg _ (hstop hu)⟩

/-- Settles O9: TXC by the queue and the other nodes; the step that reads `overlap` absorbs it. -/
theorem overlappingSlotFaults : Obligations.OverlappingSlotFaults := by
  intro n m s
  refine ⟨exec_txc_of_contention, exec_txc_of_empty, fun rest hw hin => ?_⟩
  have hstep : step s = overlapSlots m n { s with inputs := rest } := by
    simp [step, hw, nextInput, hin, select, selectEvent, absorb, absorbEvent]
  have hidle (k : NodeId) : State.idle { s with inputs := rest } k = true ↔ (s.node k).txq = [] := by
    cases k <;> exact idle_iff
  refine ⟨fun hmn hm hn => ?_, fun hnone => ?_⟩
  · have hguard : ¬ (decide (m = n) || State.idle { s with inputs := rest } m
        || State.idle { s with inputs := rest } n) = true := by
      simp [hmn, hidle, hm, hn]
    rw [hstep, overlapSlots, if_neg hguard]
    refine exec_txc_of_contention hmn (by simp [setTxEn]) ?_
    rw [setTxEn, modNode_node_ne (Ne.symm hmn)]
    cases n <;> exact hn
  · have hguard : (decide (m = n) || State.idle { s with inputs := rest } m
        || State.idle { s with inputs := rest } n) = true := by
      simpa [hidle, or_assoc] using hnone
    rw [hstep, overlapSlots, if_pos hguard]

/-- Settles O10: the address rule at each receiver of the slot, and the filter's writers among the operations. -/
theorem filterFollowsTheLastCharacter : Obligations.FilterFollowsTheLastCharacter := by
  refine ⟨fun n m c rest s t hq h => ?_, fun i s t k h htxc hrxa hdrop hacc =>
    exec_filter k h htxc hrxa hdrop hacc⟩
  obtain ⟨hempty, -⟩ | ⟨c', rest', hq', -, rfl⟩ := execTxc_cases h
  · simp [hq] at hempty
  · obtain ⟨rfl, rfl⟩ : c = c' ∧ rest = rest' := by simpa [hq] using hq'
    refine ⟨fun hm hrst => ?_, slot_filter_own n c rest s⟩
    obtain ⟨hnode, -, -⟩ := slot_agrees_other hm c rest s
    rw [hnode, rxChar_filter m c s hrst]
    obtain ⟨marker, byte⟩ := c
    simp

/-- Settles O11: the two slots, seen at each node. The addressee's filter is opened by the first and its payload is
handled in the second; a bystander's is closed by the first and stays closed; the sender has nothing to handle. -/
theorem messageRunsAtItsAddresseeAlone : Obligations.MessageRunsAtItsAddresseeAlone := by
  intro n m p s hw hlisten hmn hq hidle hbyte htick
  have hown := two_slots_agree_own (addrCh (s.cfg.addr m)) (dataCh p) hbyte htick
  have hother {k : NodeId} (hk : k ≠ n) := two_slots_agree_other hk (addrCh (s.cfg.addr m)) (dataCh p) s
  have hrun := execAll_two_slots (c := addrCh (s.cfg.addr m)) (d := dataCh p) (fun k => (hlisten k).2) hq
  refine ⟨_, rx m p (setFilter m true s), hrun, ?_, ?_⟩
  · have hpayload := Laws.exec_payloadInstr m p (setFilter m true s)
    rwa [setFilter_cfg, setFilter_node_same] at hpayload
  · obtain ⟨haddressee, haddresseeRole, -⟩ := hother hmn
    rw [rxChar_message_addressee p (hlisten m).1 hidle] at haddressee haddresseeRole
    obtain ⟨hsender, hsenderRole, -⟩ := hown
    refine ⟨haddressee, haddresseeRole, ?_, sameRole_trans (modNode_sameRole ..) hsenderRole, fun k hkm hkn => ?_⟩
    · rw [hsender, modNode_node_same]
      simp [dropHead, (hlisten n).2]
    · obtain ⟨hnode, hrole, -⟩ := hother hkn
      have hforeign : s.cfg.addr m ≠ s.cfg.addr k := fun h => hkm (addr_injective hw h).symm
      rw [rxChar_message_other p (hlisten k).1 hforeign] at hnode hrole
      exact ⟨hnode.trans (setFilter_node_same ..), sameRole_trans (modNode_sameRole ..) hrole⟩

end Sys2Proof.Machine
end

section
/-! SUPPORT. Laws of the display used by family 41_display: the rows of its payload table (30_encoding R84), the
characters of its two broadcasts (41_display R148, R149), the accumulate guard on both sides (R137), and the tick
handler by what CT.TICK returns (R143). -/

namespace Sys2Proof.Machine

/-! ## The rows of the display's table (30_encoding R84) -/

theorem eq_digitCode_of_toNat {p : Byte} {d : Digit} (h : p.toNat = 0x30 + d.val) : p = digitCode d :=
  BitVec.eq_of_toNat_eq (h.trans (Laws.digitCode_toNat d).symm)

@[simp] theorem selectDsp_selectSpeed_digitCode (cfg : Cfg) (d : Digit) :
    selectDsp cfg .selectSpeed (digitCode d) = .speed d := by
  simp [selectDsp]

@[simp] theorem selectDsp_selectMode_digitCode (cfg : Cfg) (d : Digit) :
    selectDsp cfg .selectMode (digitCode d) = if d = 0 then .modeT else .modeNt d := by
  simp [selectDsp]

@[simp] theorem selectDsp_enterTimer_dDelete (cfg : Cfg) : selectDsp cfg .enterTimer cfg.dDelete = .tDel :=
  if_pos rfl

theorem selectDsp_enterTimer_dConfirm {cfg : Cfg} (hw : cfg.wf = true) :
    selectDsp cfg .enterTimer cfg.dConfirm = .tOk := by
  obtain ⟨-, -, -, hne⟩ := wf_displayCodes hw
  simp [selectDsp, hne.symm]

theorem selectDsp_enterTimer_digitCode {cfg : Cfg} (hw : cfg.wf = true) (d : Digit) :
    selectDsp cfg .enterTimer (digitCode d) = .tDigit d := by
  obtain ⟨-, hdel, hok, -⟩ := wf_displayCodes hw
  simp [selectDsp, digitCode_ne hdel, digitCode_ne hok]

@[simp] theorem selectDsp_noTimer_dReset (cfg : Cfg) : selectDsp cfg .noTimer cfg.dReset = .runReset :=
  if_pos rfl

@[simp] theorem selectDsp_timerEnded_dReset (cfg : Cfg) : selectDsp cfg .timerEnded cfg.dReset = .endReset :=
  if_pos rfl

theorem selectDsp_noTimer_digitCode {cfg : Cfg} (hw : cfg.wf = true) (d : Digit) :
    selectDsp cfg .noTimer (digitCode d) = .runSpeed d := by
  obtain ⟨hreset, -, -, -⟩ := wf_displayCodes hw
  simp [selectDsp, digitCode_ne hreset]

/-- Where no other row of the display matches, its table selects DSP.IGN (41_display R141). -/
theorem payloadInstr_dspIgn {cfg : Cfg} {st : SessionState} {p : Byte} (h : dspIgnores cfg st p = true) :
    payloadInstr cfg .dsp st p = .dspIgn p :=
  congrArg dspInstr (selectDsp_of_dspIgnores h)

/-! ## The broadcasts (41_display R148, R149) -/

/-- BCAST_START changes the display's queue alone. -/
theorem bcastStart_eq (c : Byte) (s : State) :
    bcastStart c s = { s with dsp := { s.dsp with
      txq := s.dsp.txq ++ [⟨true, s.cfg.addrInd⟩, ⟨false, c⟩,
        ⟨true, s.cfg.addrAct⟩, ⟨false, speedCode s.disp.speed⟩] } } := by
  simp [bcastStart, send, modNode, message, addrCh, dataCh]

/-- BCAST_ENDED changes the display's queue alone. -/
theorem bcastEnded_eq (s : State) :
    bcastEnded s = { s with dsp := { s.dsp with
      txq := s.dsp.txq ++ [⟨true, s.cfg.addrInd⟩, ⟨false, s.cfg.iEnded⟩,
        ⟨true, s.cfg.addrAct⟩, ⟨false, s.cfg.aEnded⟩,
        ⟨true, s.cfg.addrInd⟩, ⟨false, s.cfg.iEnded⟩,
        ⟨true, s.cfg.addrAct⟩, ⟨false, s.cfg.aEnded⟩] } } := by
  simp [bcastEnded, send, modNode, message, addrCh, dataCh]

/-! ## The accumulate guard (41_display R137) -/

/-- A digit that fits is stored and the entry screen rendered again. -/
theorem dspTDigit_of_fits {d : Digit} {s : State} (h : s.disp.acc.toNat * 10 + d.val ≤ s.cfg.minMax) :
    dspTDigit d s = { s with
      dsp := { s.dsp with
        out := s.dsp.out ++ [.screenTimerEntry (BitVec.ofNat 8 (appendDigit s.disp.acc d))] }
      disp := { s.disp with acc := BitVec.ofNat 8 (appendDigit s.disp.acc d) } } :=
  if_pos ((Laws.digitFits_iff ..).mpr h)

theorem dspTDigit_of_overflow {d : Digit} {s : State} (h : s.cfg.minMax < s.disp.acc.toNat * 10 + d.val) :
    dspTDigit d s = s :=
  if_neg fun hfit => Nat.not_le_of_lt h ((Laws.digitFits_iff ..).mp hfit)

/-! ## The countdown tick (41_display R143, R145) -/

/-- CT.TICK returns NONE, FINISHED or ADVANCED, never the result of a CT.PROGRESS (42_countdown R162, R163). -/
theorem ctTick_ret (s : State) :
    (ctTick s).ret = .none ∨ (ctTick s).ret = .finished ∨ ∃ bar per, (ctTick s).ret = .advanced bar per := by
  simp only [ctTick]
  split
  · split
    · exact .inr (Laws.ctSecond_ret _)
    · exact .inl rfl
  · exact .inl rfl

theorem dspTick_of_none {s : State} (h : (ctTick s).ret = .none) : dspTick s = ctTick s := by
  simp [dspTick, h]

theorem dspTick_of_finished {s : State} (h : (ctTick s).ret = .finished) : dspTick s = dspFin (ctTick s) := by
  simp [dspTick, h]

theorem dspTick_of_advanced {s : State} {bar per : Bool} (h : (ctTick s).ret = .advanced bar per) :
    dspTick s = dspSec bar per (ctTick s) := by
  simp [dspTick, h]

/-- The segment drawn is the one before the index, where there is one. -/
theorem barSegmentOf_of_succ {i : BitVec 4} {k : Nat} (h : i.toNat = k + 1) : barSegmentOf i = k := by
  have hi : i ≠ 0 := by
    rintro rfl
    simp at h
  rw [barSegmentOf, if_neg hi, h, Nat.add_sub_cancel]

end Sys2Proof.Machine
end

section
/-! SUPPORT. Proofs of family 41_display: the session walk of the display, the timer length, the reset, and the
countdown tick (41_display R131 to R149). -/

namespace Sys2Proof.Machine

/-- Settles O14: the rows of `EnterTimer`, and the guard on both sides. A number within `MIN_MAX` fits a byte. -/
theorem displayEditsTimerLength : Obligations.DisplayEditsTimerLength := by
  intro p d s hw
  refine ⟨congrArg dspInstr (selectDsp_enterTimer_dDelete _), rfl, fun hp => ?_, fun hfit => ?_, fun hover => ?_⟩
  · rw [eq_digitCode_of_toNat hp]
    exact congrArg dspInstr (selectDsp_enterTimer_digitCode hw d)
  · obtain ⟨hacc, -⟩ := appendDigit_toNat hw ((Laws.digitFits_iff ..).mpr hfit)
    exact ⟨_, hacc, congrArg Host.Outcome.next (dspTDigit_of_fits hfit)⟩
  · rw [exec_dspTDigit, dspTDigit_of_overflow hover]

/-- Settles O18: DSP.TICK by each result of CT.TICK; a stopped engine returns NONE. -/
theorem displayTickActsOnTheEnginesResult : Obligations.DisplayTickActsOnTheEnginesResult := by
  intro s
  refine ⟨ctTick s, dspTick s, rfl, rfl, fun yes hfired => ?_, dspTick_of_none, fun hfin => ?_,
    fun bar per hadv => ?_, fun hstop => ?_⟩
  · obtain h | h | ⟨bar, per, h⟩ := ctTick_ret s <;> simp [h] at hfired
  · exact congrArg Host.Outcome.next (dspTick_of_finished hfin).symm
  · exact congrArg Host.Outcome.next (dspTick_of_advanced hadv).symm
  · have htick := ctTick_stopped hstop
    exact (dspTick_of_none (by rw [htick, setRet_ret])).trans htick

/-- Settles O12: the rows of `Standby`, `SelectSpeed` and `SelectMode`; the effects are their definitions. -/
theorem displayWalksToTimerEntry : Obligations.DisplayWalksToTimerEntry := by
  intro p d s
  refine ⟨rfl, rfl, fun hp => ?_, rfl, ?_, rfl⟩
  · rw [eq_digitCode_of_toNat hp]
    exact congrArg dspInstr (selectDsp_selectSpeed_digitCode _ d)
  · exact congrArg dspInstr (selectDsp_selectMode_digitCode s.cfg 0)

/-- Settles O13: the two rows that start a session, each with the four characters of BCAST_START. -/
theorem displayStartsSession : Obligations.DisplayStartsSession := by
  intro p d s hw
  refine ⟨fun hp hd => ?_, congrArg Host.Outcome.next (bcastStart_eq ..),
    congrArg dspInstr (selectDsp_enterTimer_dConfirm hw), congrArg Host.Outcome.next (bcastStart_eq ..)⟩
  rw [eq_digitCode_of_toNat hp]
  exact congrArg dspInstr ((selectDsp_selectMode_digitCode _ d).trans (if_neg hd))

/-- Settles O16: RESET's row in the three states that have one, the two running states sharing theirs; the effects
are their definitions. -/
theorem displayResetReinitialises : Obligations.DisplayResetReinitialises := fun s =>
  have hrun := congrArg dspInstr (selectDsp_noTimer_dReset s.cfg)
  ⟨hrun, hrun, congrArg dspInstr (selectDsp_timerEnded_dReset s.cfg), rfl, rfl⟩

/-- Settles O17: the digit row that the two running states share, and the payloads that match no row of their state. -/
theorem displaySpeedChangeAndIgnored : Obligations.DisplaySpeedChangeAndIgnored := by
  intro p d s hw
  refine ⟨fun hp => ?_, rfl, fun hp => ?_, fun hreset => payloadInstr_dspIgn (by simp [dspIgnores, hreset]), rfl⟩
  · rw [eq_digitCode_of_toNat hp]
    have hrun := congrArg dspInstr (selectDsp_noTimer_digitCode hw d)
    exact ⟨hrun, hrun⟩
  · have hdigit : isDigitCode p = false := decide_eq_false hp
    exact ⟨payloadInstr_dspIgn (by simp [dspIgnores, hdigit]), payloadInstr_dspIgn (by simp [dspIgnores, hdigit]),
      fun hdel hok => payloadInstr_dspIgn (by simp [dspIgnores, hdigit, hdel, hok]),
      fun hreset => ⟨payloadInstr_dspIgn (by simp [dspIgnores, hdigit, hreset]),
        payloadInstr_dspIgn (by simp [dspIgnores, hdigit, hreset])⟩⟩

/-- Settles O19: the four cases of an elapsed second, and the segment before the bar index. -/
theorem displaySecondOutputs : Obligations.DisplaySecondOutputs := by
  intro bar per k s
  refine ⟨?_, fun hidx => ?_, rfl⟩
  · cases bar <;> cases per <;> exact ⟨_, rfl, rfl, _, rfl⟩
  · have hrun : exec .dspBar s = .next (dspBar s) := rfl
    rw [hrun, dspBar, barSegmentOf_of_succ hidx]
    rfl

/-- Settles O20: the effect of DSP.FIN before the broadcast is its definition; BCAST_ENDED appends the eight
characters. -/
theorem displayFinishBroadcastsTwice : Obligations.DisplayFinishBroadcastsTwice := fun _ =>
  congrArg Host.Outcome.next (bcastEnded_eq _)

end Sys2Proof.Machine
end

section
/-! SUPPORT. The countdown engine second by second (42_countdown R162 to R168): the equations of CT.TICK, CT.SECOND
and CT.PROGRESS, the arithmetic of the thresholds, and the registers after `k` whole seconds of a countdown. -/

namespace Sys2Proof.Machine

/-! ## The threshold test (42_countdown R164) -/

theorem bumpProgress_bar (d : DisplayRegs) : bumpProgress .bar d = { d with barIdx := d.barIdx + 1 } := by
  simp [bumpProgress, BitVec.ofNat_add]

theorem bumpProgress_per (d : DisplayRegs) : bumpProgress .per d = { d with perIdx := d.perIdx + 1 } := by
  simp [bumpProgress, BitVec.ofNat_add]

/-- With the remaining time within the total, the threshold test speaks of the time elapsed. -/
theorem progressFires_iff {d : DisplayRegs} (h : remainingSec d.remMin d.remSec ≤ totalSec d.totalMin)
    (k : Progress) :
    progressFires k d = true ↔ progressIdx k d < progressMax k
      ∧ (progressIdx k d + 1) * totalSec d.totalMin
          ≤ (totalSec d.totalMin - remainingSec d.remMin d.remSec) * progressMax k := by
  rw [progressFires, Laws.elapsedSec_eq h, Laws.crosses_iff]

theorem ctProgress_of_fires {k : Progress} {s : State} (h : progressFires k s.disp = true) :
    ctProgress k s = setRet (.fired true) (modDisp (bumpProgress k) s) :=
  if_pos h

theorem ctProgress_of_not_fires {k : Progress} {s : State} (h : ¬ progressFires k s.disp = true) :
    ctProgress k s = setRet (.fired false) s :=
  if_neg h

/-! ## One second (42_countdown R163) -/

/-- The decrement of a register that is not zero does not wrap. -/
theorem ofNat_toNat_pred {w : Nat} {x : BitVec w} (hw : 1 < 2 ^ w) (h : x ≠ 0) :
    BitVec.ofNat w (x.toNat - 1) = x - 1 := by
  have hx : x.toNat ≠ 0 := fun h0 => h (BitVec.eq_of_toNat_eq (by simpa using h0))
  rw [← BitVec.ofNat_sub_ofNat_of_le _ _ hw (Nat.pos_of_ne_zero hx), BitVec.ofNat_toNat, BitVec.setWidth_eq]
  rfl

theorem oneSecondLess_borrow {d : DisplayRegs} (hsec : d.remSec = 0) (hmin : d.remMin ≠ 0) :
    oneSecondLess d = { d with remSec := 59, remMin := d.remMin - 1 } := by
  rw [oneSecondLess, if_pos hsec, ofNat_toNat_pred (by decide) hmin]

theorem oneSecondLess_no_borrow {d : DisplayRegs} (hsec : d.remSec ≠ 0) :
    oneSecondLess d = { d with remSec := d.remSec - 1 } := by
  rw [oneSecondLess, if_neg hsec, ofNat_toNat_pred (by decide) hsec]

theorem ctSecond_of_up {s : State} (h : timeIsUp s.disp = true) : ctSecond s = setRet .finished s :=
  if_pos h

/-- CT.SECOND with time left: the decrement, then the bar's threshold test, then the peripheral's. -/
theorem ctSecond_of_left {s s1 : State} (h : timeIsUp s.disp = false) (hs1 : s1 = modDisp oneSecondLess s) :
    ctSecond s = setRet (.advanced (progressFires .bar s1.disp) (progressFires .per (ctProgress .bar s1).disp))
      (ctProgress .per (ctProgress .bar s1)) := by
  subst hs1
  simp only [ctSecond, h, Laws.ctProgress_ret, eventFired]
  rfl

/-! ## One tick (42_countdown R162) -/

theorem ctTick_rising {s : State} (hrun : s.disp.ctRun = true) (hpar : s.disp.parity = false) :
    ctTick s = setRet .none (modDisp (fun d => { d with parity := true }) s) := by
  simp [ctTick, hrun, hpar, modDisp]

theorem ctTick_falling {s : State} (hrun : s.disp.ctRun = true) (hpar : s.disp.parity = true) :
    ctTick s = ctSecond (modDisp (fun d => { d with parity := false }) s) := by
  simp [ctTick, hrun, hpar, modDisp]

/-- Two ticks from a whole second on are one second. -/
theorem ctTick_ctTick {s : State} (hrun : s.disp.ctRun = true) (hpar : s.disp.parity = false) :
    ctTick (ctTick s) = ctSecond (setRet .none s) := by
  have hdisp : ({ s.disp with parity := false } : DisplayRegs) = s.disp := by rw [← hpar]
  rw [ctTick_rising hrun hpar, ctTick_falling (by exact hrun) rfl]
  exact congrArg (fun d => ctSecond (setRet .none { s with disp := d })) hdisp

/-! ## The arithmetic of the thresholds (42_countdown R165, R166) -/

/-- Before the end a threshold remains: the number of those reached is below `m`. -/
theorem count_lt {m total k : Nat} (hm : 0 < m) (hk : k < total) : m * k / total < m :=
  Nat.div_lt_of_lt_mul (by rw [Nat.mul_comm total]; exact Nat.mul_lt_mul_of_pos_left hk hm)

/-- The number of thresholds reached, as the bounds it lies between. -/
theorem count_bounds {m total k : Nat} (hk : k < total) :
    m * k / total * total ≤ m * k ∧ m * k < (m * k / total + 1) * total :=
  ⟨Nat.div_mul_le_self .., Nat.lt_mul_of_div_lt (Nat.lt_succ_self _) (Nat.zero_lt_of_lt hk)⟩

/-- The thresholds are at least a second apart, so a second reaches one more of them at most. -/
theorem count_succ_of_reached {m total k : Nat} (hm : m ≤ total) (hk : k < total)
    (h : (m * k / total + 1) * total ≤ (k + 1) * m) : m * (k + 1) / total = m * k / total + 1 := by
  obtain ⟨-, hlt⟩ := count_bounds (m := m) hk
  exact Nat.div_eq_of_lt_le (by linarith) (by linarith)

theorem count_succ_of_not_reached {m total k : Nat} (hk : k < total)
    (h : ¬ (m * k / total + 1) * total ≤ (k + 1) * m) : m * (k + 1) / total = m * k / total := by
  obtain ⟨hle, -⟩ := count_bounds (m := m) hk
  exact Nat.div_eq_of_lt_le (by linarith) (by linarith)

/-- Second `k + 1` is `ceil (a / m)` exactly if `a` lies in its half-open interval. -/
theorem succ_eq_ceil_iff {m a k : Nat} (hm : 0 < m) :
    k + 1 = (a + (m - 1)) / m ↔ m * k < a ∧ a ≤ m * (k + 1) := by
  rw [eq_comm, Nat.div_eq_iff hm, Nat.add_mul, Nat.mul_add, Nat.mul_comm k]
  omega

/-- The next threshold is reached in second `k + 1` exactly if that is the second `ceil (j * total / m)` of some
`j`. -/
theorem reached_iff_ceil {m total k : Nat} (hm : 0 < m) (hk : k < total) :
    (m * k / total + 1) * total ≤ (k + 1) * m
      ↔ ∃ j, 1 ≤ j ∧ j ≤ m ∧ k + 1 = (j * total + (m - 1)) / m := by
  obtain ⟨hle, hlt⟩ := count_bounds (m := m) hk
  simp only [succ_eq_ceil_iff hm, Nat.mul_comm (k + 1)]
  constructor
  · intro h
    exact ⟨m * k / total + 1, Nat.le_add_left .., count_lt hm hk, hlt, h⟩
  · rintro ⟨j, -, -, hlo, hhi⟩
    have hj : m * k / total < j := lt_of_mul_lt_mul_right (hle.trans_lt hlo) (Nat.zero_le _)
    exact (Nat.mul_le_mul_right total hj).trans hhi

/-! ## The registers after whole seconds of a countdown -/

/-- The time after `k` seconds of a countdown of `total` minutes: the engine runs, between two seconds. -/
structure TimeAfter (total : Byte) (k : Nat) (d : DisplayRegs) : Prop where
  totalMin : d.totalMin = total
  ctRun : d.ctRun = true
  parity : d.parity = false
  remSec : d.remSec.toNat ≤ 59
  time : remainingSec d.remMin d.remSec + k = totalSec total

/-- The second just counted is one of the countdown's. -/
theorem TimeAfter.lt_totalSec {total : Byte} {k : Nat} {d : DisplayRegs} (h : TimeAfter total (k + 1) d) :
    k < totalSec total := by
  have htime := h.time
  omega

/-- The registers after `k` seconds of a countdown: each index counts the thresholds reached (42_countdown R166). -/
structure SecondsElapsed (total : Byte) (k : Nat) (d : DisplayRegs) : Prop extends TimeAfter total k d where
  count : ∀ p, progressIdx p d = progressMax p * k / totalSec total

/-- Second `k` is one of the seconds `ceil (j * total_s / M)` (42_countdown R166). -/
def EventDue (total : Byte) (p : Progress) (k : Nat) : Prop :=
  ∃ j, 1 ≤ j ∧ j ≤ progressMax p ∧ k = (j * totalSec total + (progressMax p - 1)) / progressMax p

/-- What second `k` returns: ADVANCED, with the events that are due. -/
def AdvancedWithDue (total : Byte) (k : Nat) (r : CallResult) : Prop :=
  ∃ bar per, r = .advanced bar per
    ∧ (bar = true ↔ EventDue total .bar k) ∧ (per = true ↔ EventDue total .per k)

theorem progressMax_pos (p : Progress) : 0 < progressMax p := by
  cases p <;> decide

/-- A countdown that lasts at all lasts a minute, longer than there are thresholds. -/
theorem progressMax_le_totalSec {total : Byte} {k : Nat} (hk : k < totalSec total) (p : Progress) :
    progressMax p ≤ totalSec total := by
  have hminute : 60 ≤ totalSec total := by
    unfold totalSec at *
    omega
  cases p <;> exact le_trans (by decide) hminute

theorem bumpProgress_timeAfter {total : Byte} {k : Nat} {d : DisplayRegs} (h : TimeAfter total k d)
    (p : Progress) : TimeAfter total k (bumpProgress p d) := by
  cases p <;> exact ⟨h.totalMin, h.ctRun, h.parity, h.remSec, h.time⟩

theorem ctProgress_timeAfter {total : Byte} {k : Nat} {s : State} (h : TimeAfter total k s.disp)
    (p : Progress) : TimeAfter total k (ctProgress p s).disp := by
  obtain ⟨-, he⟩ | ⟨-, he⟩ := ctProgress_cases p s <;> rw [he]
  · exact bumpProgress_timeAfter h p
  · exact h

/-- An index below its maximum does not wrap. -/
theorem progressIdx_bumpProgress {p : Progress} {d : DisplayRegs} (h : progressIdx p d < progressMax p) :
    progressIdx p (bumpProgress p d) = progressIdx p d + 1 := by
  cases p with
  | bar => exact Nat.mod_eq_of_lt ((Nat.succ_lt_succ h).trans (by decide))
  | per => exact Nat.mod_eq_of_lt ((Nat.succ_lt_succ h).trans_le (by decide))

theorem progressIdx_bumpProgress_ne {p q : Progress} (h : q ≠ p) (d : DisplayRegs) :
    progressIdx q (bumpProgress p d) = progressIdx q d :=
  match p, q, h with
  | .bar, .per, _ => rfl
  | .per, .bar, _ => rfl
  | .bar, .bar, h => absurd rfl h
  | .per, .per, h => absurd rfl h

/-- The threshold test of one index leaves the other alone. -/
theorem progressIdx_ctProgress_ne {p q : Progress} (h : q ≠ p) (s : State) :
    progressIdx q (ctProgress p s).disp = progressIdx q s.disp := by
  obtain ⟨-, he⟩ | ⟨-, he⟩ := ctProgress_cases p s <;> rw [he]
  · exact progressIdx_bumpProgress_ne h s.disp
  · rfl

section
variable {total : Byte} {k : Nat} {p : Progress}

/-- In second `k + 1` the threshold test asks for the first threshold not reached in `k` seconds. -/
theorem progressFires_iff_reached {d : DisplayRegs} (ht : TimeAfter total (k + 1) d)
    (hidx : progressIdx p d = progressMax p * k / totalSec total) :
    progressFires p d = true
      ↔ (progressMax p * k / totalSec total + 1) * totalSec total ≤ (k + 1) * progressMax p := by
  have htime := ht.time
  have helapsed : totalSec total - remainingSec d.remMin d.remSec = k + 1 := by omega
  rw [progressFires_iff (by rw [ht.totalMin]; omega), ht.totalMin, helapsed, hidx]
  exact and_iff_right (count_lt (progressMax_pos p) ht.lt_totalSec)

theorem progressFires_iff_due {d : DisplayRegs} (ht : TimeAfter total (k + 1) d)
    (hidx : progressIdx p d = progressMax p * k / totalSec total) :
    progressFires p d = true ↔ EventDue total p (k + 1) :=
  (progressFires_iff_reached ht hidx).trans (reached_iff_ceil (progressMax_pos p) ht.lt_totalSec)

/-- CT.PROGRESS brings its index from the count of `k` seconds to that of `k + 1`. -/
theorem progressIdx_ctProgress_same {s : State} (ht : TimeAfter total (k + 1) s.disp)
    (hidx : progressIdx p s.disp = progressMax p * k / totalSec total) :
    progressIdx p (ctProgress p s).disp = progressMax p * (k + 1) / totalSec total := by
  have hk := ht.lt_totalSec
  by_cases hfires : progressFires p s.disp = true
  · have hreached := (progressFires_iff_reached ht hidx).mp hfires
    rw [ctProgress_of_fires hfires, count_succ_of_reached (progressMax_le_totalSec hk p) hk hreached, ← hidx]
    exact progressIdx_bumpProgress (hidx ▸ count_lt (progressMax_pos p) hk)
  · have hreached := mt (progressFires_iff_reached ht hidx).mpr hfires
    rw [ctProgress_of_not_fires hfires, count_succ_of_not_reached hk hreached, ← hidx]
    rfl

end

theorem timeIsUp_iff_of_timeAfter {total : Byte} {k : Nat} {d : DisplayRegs} (h : TimeAfter total k d) :
    timeIsUp d = true ↔ k = totalSec total := by
  have htime := h.time
  simp only [remainingSec] at htime
  simp only [Laws.timeIsUp_iff, ← BitVec.toNat_inj, BitVec.ofNat_eq_ofNat, BitVec.toNat_ofNat, Nat.zero_mod]
  omega

theorem timeIsUp_eq_false_iff {total : Byte} {k : Nat} {d : DisplayRegs} (h : TimeAfter total k d) :
    timeIsUp d = false ↔ k < totalSec total := by
  have htime := h.time
  rw [← Bool.not_eq_true, timeIsUp_iff_of_timeAfter h]
  omega

theorem oneSecondLess_timeAfter {total : Byte} {k : Nat} {d : DisplayRegs} (h : TimeAfter total k d)
    (hk : k < totalSec total) : TimeAfter total (k + 1) (oneSecondLess d) := by
  obtain ⟨htime, hsec, -⟩ := oneSecondLess_time ((timeIsUp_eq_false_iff h).mpr hk) h.remSec
  obtain ⟨-, -, htotal, -, -, hpar, hrun, -⟩ := oneSecondLess_frame d
  have hsum := h.time
  simp only [remainingSec] at hsum
  exact ⟨htotal.trans h.totalMin, hrun.trans h.ctRun, hpar.trans h.parity, hsec, by
    simp only [remainingSec]; omega⟩

theorem progressIdx_oneSecondLess (p : Progress) (d : DisplayRegs) :
    progressIdx p (oneSecondLess d) = progressIdx p d := by
  obtain ⟨-, -, -, hbar, hper, -⟩ := oneSecondLess_frame d
  cases p
  · exact congrArg BitVec.toNat hbar
  · exact congrArg BitVec.toNat hper

/-- The two threshold tests after the decrement bring both indices to the count of `k + 1` seconds; each fires
exactly if its event is due. -/
theorem ctProgress_ctProgress_secondsElapsed {total : Byte} {k : Nat} {s : State}
    (ht : TimeAfter total (k + 1) s.disp)
    (hcount : ∀ p, progressIdx p s.disp = progressMax p * k / totalSec total) :
    SecondsElapsed total (k + 1) (ctProgress .per (ctProgress .bar s)).disp
    ∧ (progressFires .bar s.disp = true ↔ EventDue total .bar (k + 1))
    ∧ (progressFires .per (ctProgress .bar s).disp = true ↔ EventDue total .per (k + 1)) := by
  have ht' := ctProgress_timeAfter ht .bar
  have hper := (progressIdx_ctProgress_ne (p := .bar) (q := .per) (by decide) s).trans (hcount .per)
  refine ⟨⟨ctProgress_timeAfter ht' .per, fun p => ?_⟩, progressFires_iff_due ht (hcount .bar),
    progressFires_iff_due ht' hper⟩
  cases p with
  | bar => exact (progressIdx_ctProgress_ne (by decide) _).trans (progressIdx_ctProgress_same ht (hcount .bar))
  | per => exact progressIdx_ctProgress_same ht' hper

/-- One second of a countdown: the registers of second `k + 1`, and the events that are due in it. -/
theorem ctSecond_secondsElapsed {total : Byte} {k : Nat} {s : State} (h : SecondsElapsed total k s.disp)
    (hk : k < totalSec total) :
    SecondsElapsed total (k + 1) (ctSecond s).disp ∧ AdvancedWithDue total (k + 1) (ctSecond s).ret := by
  obtain ⟨htime, hcount⟩ := h
  have hleft : timeIsUp s.disp = false := (timeIsUp_eq_false_iff htime).mpr hk
  obtain ⟨hregs, hbar, hper⟩ := ctProgress_ctProgress_secondsElapsed (s := modDisp oneSecondLess s)
    (oneSecondLess_timeAfter htime hk) fun p => (progressIdx_oneSecondLess p s.disp).trans (hcount p)
  rw [ctSecond_of_left hleft rfl]
  exact ⟨hregs, _, _, rfl, hbar, hper⟩

/-! ## A run of ticks -/

theorem execAll_replicate_of_next {i : Instr} {g : State → State} (h : ∀ s, exec i s = .next (g s)) (n : Nat)
    (s : State) : execAll (List.replicate n i) s = .next (g^[n] s) := by
  induction n generalizing s with
  | zero => rfl
  | succ n ih => rw [List.replicate_succ, execAll_cons_of_next (h s), ih, Function.iterate_succ_apply]

/-- CT.START and `j` ticks. -/
def ticksAfterStart (total : Byte) (j : Nat) (s : State) : State :=
  ctTick^[j] (ctStart total s)

theorem execAll_ticksAfterStart (total : Byte) (j : Nat) (s : State) :
    execAll (.ctStart total :: List.replicate j .ctTick) s = .next (ticksAfterStart total j s) := by
  rw [execAll_cons_of_next (t := ctStart total s) rfl]
  exact execAll_replicate_of_next (fun _ => rfl) j _

theorem ticksAfterStart_succ (total : Byte) (j : Nat) (s : State) :
    ticksAfterStart total (j + 1) s = ctTick (ticksAfterStart total j s) :=
  Function.iterate_succ_apply' ..

theorem ctStart_secondsElapsed (total : Byte) (s : State) : SecondsElapsed total 0 (ctStart total s).disp := by
  refine ⟨⟨rfl, rfl, rfl, Nat.zero_le _, rfl⟩, fun p => ?_⟩
  rw [Nat.mul_zero, Nat.zero_div]
  cases p <;> rfl

/-- After `2 * k` ticks `k` seconds have elapsed. -/
theorem ticksAfterStart_secondsElapsed {total : Byte} {k : Nat} (hk : k ≤ totalSec total) (s : State) :
    SecondsElapsed total k (ticksAfterStart total (2 * k) s).disp
      ∧ (1 ≤ k → AdvancedWithDue total k (ticksAfterStart total (2 * k) s).ret) := by
  induction k with
  | zero => exact ⟨ctStart_secondsElapsed total s, fun h => absurd h (by decide)⟩
  | succ k ih =>
    obtain ⟨hregs, -⟩ := ih (by omega)
    rw [Nat.mul_succ, ticksAfterStart_succ, ticksAfterStart_succ, ctTick_ctTick hregs.ctRun hregs.parity]
    obtain ⟨hregs', hret⟩ := ctSecond_secondsElapsed (s := setRet .none _) hregs hk
    exact ⟨hregs', fun _ => hret⟩

/-- The tick between two seconds toggles `parity` alone. -/
theorem ticksAfterStart_odd {total : Byte} {k : Nat} (hk : k ≤ totalSec total) (s : State) :
    ticksAfterStart total (2 * k + 1) s
      = setRet .none (modDisp (fun d => { d with parity := true }) (ticksAfterStart total (2 * k) s)) := by
  obtain ⟨hregs, -⟩ := ticksAfterStart_secondsElapsed hk s
  rw [ticksAfterStart_succ, ctTick_rising hregs.ctRun hregs.parity]

/-- The second after the last finds the time up (42_countdown R167). -/
theorem ticksAfterStart_finished (total : Byte) (s : State) :
    ticksAfterStart total (2 * (totalSec total + 1)) s
      = setRet .finished (ticksAfterStart total (2 * totalSec total) s) := by
  obtain ⟨hregs, -⟩ := ticksAfterStart_secondsElapsed (le_refl (totalSec total)) s
  have hup := (timeIsUp_iff_of_timeAfter hregs.toTimeAfter).mpr rfl
  rw [Nat.mul_succ, ticksAfterStart_succ, ticksAfterStart_succ, ctTick_ctTick hregs.ctRun hregs.parity,
    ctSecond_of_up (by exact hup)]
  rfl

theorem time_zero_of_secondsElapsed {total : Byte} {d : DisplayRegs} (h : SecondsElapsed total (totalSec total) d) :
    d.remMin = 0 ∧ d.remSec = 0 :=
  (Laws.timeIsUp_iff d).mp ((timeIsUp_iff_of_timeAfter h.toTimeAfter).mpr rfl)

/-- A countdown of zero minutes reaches no threshold (42_countdown R168). -/
theorem progress_zero_of_secondsElapsed {k : Nat} {d : DisplayRegs} (h : SecondsElapsed 0 k d) :
    d.barIdx = 0 ∧ d.perIdx = 0 :=
  ⟨BitVec.eq_of_toNat_eq ((h.count .bar).trans (Nat.div_zero _)),
    BitVec.eq_of_toNat_eq ((h.count .per).trans (Nat.div_zero _))⟩

/-- The registers, but for `parity`, and the result after any number of ticks up to the last. -/
theorem ticksAfterStart_cases {total : Byte} {j : Nat} (hj : j ≤ 2 * (totalSec total + 1)) (s : State) :
    ∃ k, SecondsElapsed total k { (ticksAfterStart total j s).disp with parity := false }
      ∧ (2 * totalSec total ≤ j → k = totalSec total)
      ∧ (1 ≤ j → ((ticksAfterStart total j s).ret = .finished ↔ j = 2 * (totalSec total + 1))) := by
  have hregs {k : Nat} (hk : k ≤ totalSec total) :
      SecondsElapsed total k { (ticksAfterStart total (2 * k) s).disp with parity := false } := by
    obtain ⟨h, -⟩ := ticksAfterStart_secondsElapsed hk s
    exact ⟨⟨h.totalMin, h.ctRun, rfl, h.remSec, h.time⟩, h.count⟩
  obtain hend | hlt := hj.eq_or_lt
  · rw [hend, ticksAfterStart_finished]
    exact ⟨totalSec total, hregs le_rfl, fun _ => rfl, fun _ => iff_of_true rfl rfl⟩
  · obtain ⟨k, rfl | rfl⟩ := Nat.even_or_odd' j
    · have hk : k ≤ totalSec total := by omega
      refine ⟨k, hregs hk, by omega, fun h1 => ?_⟩
      obtain ⟨-, hret⟩ := ticksAfterStart_secondsElapsed hk s
      obtain ⟨bar, per, hadv, -⟩ := hret (by omega)
      exact iff_of_false (by simp [hadv]) hlt.ne
    · have hk : k ≤ totalSec total := by omega
      rw [ticksAfterStart_odd hk]
      exact ⟨k, hregs hk, by omega, fun _ => iff_of_false (by simp) hlt.ne⟩

end Sys2Proof.Machine
end

section
/-! SUPPORT. Proofs of family 42_countdown: starting, stopping, the tick, the second and the threshold test of the
engine, and a full countdown (42_countdown R160 to R168). -/

namespace Sys2Proof.Machine

/-- Settles O25: second by second, the registers and the events that are due. -/
theorem fullCountdownFiresFourteenAndSix : Obligations.FullCountdownFiresFourteenAndSix := by
  intro s total k _ hk
  obtain ⟨h, hret⟩ := ticksAfterStart_secondsElapsed (total := total) hk s
  have htime := h.time
  exact ⟨_, execAll_ticksAfterStart .., h.totalMin, h.ctRun, h.parity, h.remSec, htime, h.count .bar, h.count .per,
    hret⟩

/-- Settles O26: the last tick finds the time up; an earlier one returns NONE or ADVANCED. -/
theorem countdownFinishesAtItsTick : Obligations.CountdownFinishesAtItsTick := by
  intro s total j hj
  rw [Nat.mul_comm 60] at hj ⊢
  obtain ⟨k, hregs, hk, hret⟩ := ticksAfterStart_cases hj s
  refine ⟨_, execAll_ticksAfterStart .., hret, fun hend => ?_, ?_⟩
  · obtain rfl := hk (by unfold totalSec; omega)
    have hzero := time_zero_of_secondsElapsed hregs
    exact hzero
  · rintro rfl
    have hzero := progress_zero_of_secondsElapsed hregs
    exact hzero

/-- Settles O23: the time is up, or the decrement with or without a borrow and the two threshold tests. -/
theorem countdownSecondDecrements : Obligations.CountdownSecondDecrements := by
  intro s
  refine ⟨fun hmin hsec => congrArg Host.Outcome.next (ctSecond_of_up ((Laws.timeIsUp_iff _).mpr ⟨hmin, hsec⟩)),
    fun hleft => ?_⟩
  have hleft' : timeIsUp s.disp = false := Bool.eq_false_iff.mpr (mt (Laws.timeIsUp_iff _).mp hleft)
  refine ⟨modDisp oneSecondLess s, _, _, _, _, fun hsec => ?_, fun hsec => ?_, rfl, Laws.ctProgress_ret .., rfl,
    Laws.ctProgress_ret .., congrArg Host.Outcome.next (ctSecond_of_left hleft' rfl)⟩
  · rw [modDisp, oneSecondLess_borrow hsec fun hmin => hleft ⟨hmin, hsec⟩]
  · rw [modDisp, oneSecondLess_no_borrow hsec]

/-- Settles O24: each index with its threshold test, fired or not. -/
theorem countdownThresholdTest : Obligations.CountdownThresholdTest := by
  intro s hwithin
  refine ⟨_, _, rfl, rfl, ?_⟩
  rw [Nat.sub_sub]
  refine ⟨fun h => ?_, fun h => ?_, fun h => ?_, fun h => ?_⟩
  · have hrun := ctProgress_of_fires ((progressFires_iff hwithin .bar).mpr h)
    rw [modDisp, bumpProgress_bar] at hrun
    exact congrArg Host.Outcome.next hrun
  · exact congrArg Host.Outcome.next (ctProgress_of_not_fires (mt (progressFires_iff hwithin .bar).mp h))
  · have hrun := ctProgress_of_fires ((progressFires_iff hwithin .per).mpr h)
    rw [modDisp, bumpProgress_per] at hrun
    exact congrArg Host.Outcome.next hrun
  · exact congrArg Host.Outcome.next (ctProgress_of_not_fires (mt (progressFires_iff hwithin .per).mp h))

/-- Settles O21: both effects are their definitions. -/
theorem countdownStartAndStop : Obligations.CountdownStartAndStop :=
  fun _ _ => ⟨rfl, rfl⟩

/-- Settles O22: a stopped engine, and a running one on each edge of `parity`. -/
theorem countdownTickTogglesParity : Obligations.CountdownTickTogglesParity := fun _ =>
  ⟨fun hstop => congrArg Host.Outcome.next (ctTick_stopped hstop),
    fun hrun hpar => congrArg Host.Outcome.next (ctTick_rising hrun hpar),
    fun hrun hpar => ⟨congrArg Host.Outcome.next (ctTick_falling hrun hpar), _, rfl⟩⟩

end Sys2Proof.Machine
end

section
/-! SUPPORT. The duty-cycle generator (43_dutycycle R181, R183, R184): the equations of DC.STOP and DC.TICK, the
registers after `k` ticks, and how many of 100 counts are below the threshold. -/

namespace Sys2Proof.Machine

/-! ## Stopping (43_dutycycle R181) -/

theorem dcStop_eq (s : State) :
    dcStop s = { s with
      actr := { s.actr with dcRun := false, actEn := false }
      act := { s.act with out := s.act.out ++ (if s.actr.actEn then [.actEnable false] else []) } } := by
  rw [dcStop, Laws.setActEn_eq]
  cases h : s.actr.actEn <;> simp [modActr, h]

/-! ## One tick (43_dutycycle R183) -/

theorem dcTick_stopped {s : State} (h : s.actr.dcRun = false) : dcTick s = s := by
  simp [dcTick, h]

theorem dcTick_running {s : State} (h : s.actr.dcRun = true) :
    dcTick s = { s with
      actr := { s.actr with actEn := dutyOn s.actr.dcCnt s.actr.speed, dcCnt := dutyNext s.actr.dcCnt }
      act := { s.act with
        out := s.act.out ++ (if dutyOn s.actr.dcCnt s.actr.speed = s.actr.actEn then []
          else [.actEnable (dutyOn s.actr.dcCnt s.actr.speed)]) } } := by
  rw [dcTick, if_pos h, Laws.setActEn_eq]
  rfl

/-! ## A run of ticks (43_dutycycle R184) -/

/-- The registers the compare reads, `k` ticks after those of `a`. -/
structure TicksCounted (k : Nat) (a b : ActuatorRegs) : Prop where
  dcRun : b.dcRun = true
  speed : b.speed = a.speed
  dcCnt : b.dcCnt.toNat = (a.dcCnt.toNat + k) % 100

theorem ticksCounted_dcTick {k : Nat} {a : ActuatorRegs} {s : State} (h : TicksCounted k a s.actr) :
    TicksCounted (k + 1) a (dcTick s).actr := by
  obtain ⟨hrun, hspeed, hcnt⟩ := h
  rw [dcTick_running hrun]
  refine ⟨hrun, hspeed, ?_⟩
  rw [dutyNext_toNat, hcnt, Nat.mod_add_mod, Nat.add_assoc]

theorem ticksCounted_iterate {s : State} (hrun : s.actr.dcRun = true) (hcnt : s.actr.dcCnt.toNat ≤ 99) (k : Nat) :
    TicksCounted k s.actr (dcTick^[k] s).actr := by
  induction k with
  | zero => exact ⟨hrun, rfl, (Nat.mod_eq_of_lt (Nat.lt_succ_of_le hcnt)).symm⟩
  | succ k ih =>
    rw [Function.iterate_succ_apply']
    exact ticksCounted_dcTick ih

theorem enabledAfter_eq (k : Nat) (s : State) : enabledAfter k s = (dcTick^[k] s).actr.actEn := by
  rw [enabledAfter, execAll_replicate_of_next (g := dcTick) fun _ => rfl]

/-- Tick `k + 1` compares the count that `k` ticks have left. -/
theorem enabledAfter_succ_iff {s : State} (hrun : s.actr.dcRun = true) (hcnt : s.actr.dcCnt.toNat ≤ 99) (k : Nat) :
    enabledAfter (k + 1) s = true ↔ (s.actr.dcCnt.toNat + k) % 100 < s.actr.speed.toNat * 10 + 10 := by
  obtain ⟨hrun', hspeed, hcnt'⟩ := ticksCounted_iterate hrun hcnt k
  rw [enabledAfter_eq, Function.iterate_succ_apply', dcTick_running hrun', ← hcnt', ← hspeed]
  exact Laws.dutyOn_iff _ _

/-! ## Counting over a whole period -/

/-- Over one period it does not matter where the count of a periodic predicate begins. -/
theorem count_shift_of_periodic {p : Nat → Prop} [DecidablePred p] {n : Nat} (h : Function.Periodic p n) (c : Nat) :
    Nat.count (fun k => p (c + k)) n = Nat.count p n := by
  have hfront := Nat.count_add p c n
  have hback : Nat.count p (c + n) = Nat.count p c + Nat.count p n := by
    simp only [Nat.count_add', h _]
  exact Nat.add_left_cancel (hfront.symm.trans hback)

theorem count_lt_of_le {t n : Nat} (h : t ≤ n) : Nat.count (· < t) n = t := by
  obtain ⟨m, rfl⟩ := Nat.exists_eq_add_of_le h
  rw [Nat.count_add, Nat.count_of_forall fun _ hk => hk, Nat.count_of_forall_not (by omega), Nat.add_zero]

/-- Of `n` consecutive numbers, `t` have a remainder below `t`. -/
theorem count_mod_lt {t n : Nat} (h : t ≤ n) (c : Nat) : Nat.count (fun k => (c + k) % n < t) n = t := by
  have hper : Function.Periodic (fun k => k % n < t) n := fun k => by simp
  calc Nat.count (fun k => (c + k) % n < t) n
      = Nat.count (fun k => k % n < t) n := count_shift_of_periodic hper c
    _ = Nat.count (· < t) n := by
        refine List.countP_congr fun k hk => ?_
        simp only [Nat.mod_eq_of_lt (List.mem_range.mp hk)]
    _ = t := count_lt_of_le h

end Sys2Proof.Machine
end

section
/-! SUPPORT. Proofs of family 43_dutycycle: starting, stopping and setting the generator, its tick, and the duty
cycle over 100 ticks (43_dutycycle R180 to R184). -/

namespace Sys2Proof.Machine

/-- Settles O30: tick `k + 1` compares `(dc_cnt + k) mod 100`, and 100 such counts are a whole period. -/
theorem dutyCycleIsExactlyTenSPlusTenPercent : Obligations.DutyCycleIsExactlyTenSPlusTenPercent := by
  intro s hrun hcnt hspeed
  have henabled := enabledAfter_succ_iff hrun hcnt
  refine ⟨?_, fun hzero k hk => ?_⟩
  · calc (List.range 100).countP (fun k => enabledAfter (k + 1) s)
        = Nat.count (fun k => (s.actr.dcCnt.toNat + k) % 100 < s.actr.speed.toNat * 10 + 10) 100 :=
          List.countP_congr fun k _ => (henabled k).trans decide_eq_true_iff.symm
      _ = s.actr.speed.toNat * 10 + 10 := count_mod_lt (by omega) _
  · rw [henabled, hzero, BitVec.ofNat_eq_ofNat, BitVec.toNat_zero, Nat.zero_add, Nat.mod_eq_of_lt hk]

/-- Settles O28: DC.STOP's output comes with a change of the enable alone. -/
theorem generatorStartStopSpeed : Obligations.GeneratorStartStopSpeed := fun _ s =>
  ⟨rfl, congrArg Host.Outcome.next (dcStop_eq s), rfl⟩

/-- Settles O29: a stopped generator and a running one. -/
theorem generatorTickComparesThenCounts : Obligations.GeneratorTickComparesThenCounts := fun _ =>
  ⟨fun hstop => congrArg Host.Outcome.next (dcTick_stopped hstop),
    fun hrun => ⟨_, Laws.dutyOn_iff .., congrArg Host.Outcome.next (dcTick_running hrun)⟩⟩

end Sys2Proof.Machine
end

section
/-! SUPPORT. A queue sent out whole (40_framer R112, R123): what every other node hears of it and what is left of the
sender; and what the RESET codes do at their receivers (41_display R142, 45_indicator R211, 46_actuator R231). -/

namespace Sys2Proof.Machine

/-! ## A run of slots (40_framer R112) -/

/-- Node `m` receives the characters of `q` one after another. -/
def hear (m : NodeId) (q : List Char9) (s : State) : State :=
  q.foldl (fun t c => rxChar m c t) s

/-- The slots in which node `n` sends the queue `q`. -/
def slots (n : NodeId) : List Char9 → State → State
  | [], s => s
  | c :: q, s => slots n q (slot n c q s)

/-- The bus is quiet, and node `n` has the queue `q` to send and nothing pending. -/
structure ReadyToSend (n : NodeId) (q : List Char9) (s : State) : Prop where
  quiet : ∀ m, (s.node m).txEn = false
  txq : (s.node n).txq = q
  noByte : (s.node n).rxPend = false
  noTick : n = .dsp → s.disp.ctPend = false

theorem slot_readyToSend {n : NodeId} {c : Char9} {q : List Char9} {s : State} (h : ReadyToSend n (c :: q) s) :
    ReadyToSend n q (slot n c q s) := by
  obtain ⟨hquiet, -, hbyte, htick⟩ := h
  have hown := slot_agrees_own_of_none c q hbyte htick
  obtain ⟨hb, ht⟩ := pending_of_dropHead hown
  obtain ⟨hnode, -, -⟩ := hown
  rw [modNode_node_same] at hnode
  refine ⟨fun m => ?_, congrArg Node.txq hnode, hb.trans hbyte, fun hn => (ht hn).trans (htick hn)⟩
  by_cases hm : m = n
  · exact hm ▸ congrArg Node.txEn hnode
  · obtain ⟨hother, -, -⟩ := slot_agrees_other hm c q s
    rw [hother, (rxChar_pins m c s).2, hquiet m]

theorem execAll_slots {n : NodeId} {q : List Char9} {s : State} (h : ReadyToSend n q s) :
    execAll (List.replicate q.length (.txc n)) s = .next (slots n q s) := by
  induction q generalizing s with
  | nil => rfl
  | cons c q ih =>
    have hfirst := exec_txc_of_quiet h.txq fun m _ => h.quiet m
    exact (execAll_cons_of_next hfirst _).trans (ih (slot_readyToSend h))

theorem hear_agrees (m : NodeId) (q : List Char9) {s t : State} (h : agreesAt m s t) :
    agreesAt m (hear m q s) (hear m q t) := by
  induction q generalizing s t with
  | nil => exact h
  | cons c q ih => exact ih (rxChar_agrees m c h)

/-- Every node but the sender is left as its own receptions leave it. -/
theorem slots_agree_other {m n : NodeId} (hm : m ≠ n) (q : List Char9) (s : State) :
    agreesAt m (hear m q s) (slots n q s) := by
  induction q generalizing s with
  | nil => exact agreesAt_refl m s
  | cons c q ih => exact agreesAt_trans (hear_agrees m q (slot_agrees_other hm c q s)) (ih _)

/-- A sender with nothing pending loses its queue alone. -/
theorem slots_agree_own {n : NodeId} {q : List Char9} {s : State} (h : ReadyToSend n q s) :
    agreesAt n (modNode n (dropHead []) s) (slots n q s) := by
  induction q generalizing s with
  | nil =>
    have hsame : dropHead [] (s.node n) = s.node n := by rw [dropHead, ← h.quiet n, ← h.txq]
    exact agreesAt_symm ⟨(modNode_node_same ..).trans hsame, modNode_sameRole .., modNode_cfg ..⟩
  | cons c q ih =>
    have hfirst := slot_agrees_own_of_none c q h.noByte h.noTick
    have htwice : modNode n (dropHead []) (modNode n (dropHead q) s) = modNode n (dropHead []) s := by
      cases n <;> rfl
    exact agreesAt_trans (htwice ▸ modNode_agrees _ hfirst) (ih (slot_readyToSend h))

/-! ## A queue of messages (30_encoding R81, 40_framer R123) -/

/-- The characters of messages to the nodes listed, in order. -/
def messages (cfg : Cfg) (ms : List (NodeId × Byte)) : List Char9 :=
  ms.flatMap fun x => message (cfg.addr x.1) x.2

theorem hear_messages_append (m : NodeId) (cfg : Cfg) (as bs : List (NodeId × Byte)) (s : State) :
    hear m (messages cfg (as ++ bs)) s = hear m (messages cfg bs) (hear m (messages cfg as) s) := by
  simp [hear, messages]

/-- Messages to other nodes close the filter of a node, and do nothing else to it. -/
theorem hear_messages_other {m : NodeId} {ms : List (NodeId × Byte)} {cfg : Cfg} {s : State} (hw : cfg.wf = true)
    (hcfg : s.cfg = cfg) (hrst : (s.node m).rst = false) (hms : m ∉ ms.map Prod.fst) :
    hear m (messages cfg ms) s = s ∨ hear m (messages cfg ms) s = setFilter m true s := by
  induction ms generalizing s with
  | nil => exact .inl rfl
  | cons x ms ih =>
    obtain ⟨k, p⟩ := x
    rw [List.map_cons, List.mem_cons, not_or] at hms
    obtain ⟨hk, hms⟩ := hms
    have hforeign : cfg.addr k ≠ s.cfg.addr m := by
      rw [hcfg]
      exact (addr_injective hw).ne (Ne.symm hk)
    have hfirst : hear m (messages cfg ((k, p) :: ms)) s = hear m (messages cfg ms) (setFilter m true s) :=
      congrArg (hear m (messages cfg ms)) (rxChar_message_other p hrst hforeign)
    have hrest := ih (s := setFilter m true s) (by rwa [setFilter_cfg]) (by rwa [setFilter_node_same]) hms
    rw [setFilter_setFilter, or_self] at hrest
    exact .inr (hfirst.trans hrest)

/-- An idle node that one of the messages names handles its payload, and that is all it does. -/
theorem hear_messages_addressee {m : NodeId} {p : Byte} {as bs : List (NodeId × Byte)} {s : State}
    (hw : s.cfg.wf = true) (hrst : (s.node m).rst = false) (hidle : s.idle m = true)
    (has : m ∉ as.map Prod.fst) (hbs : m ∉ bs.map Prod.fst) :
    hear m (messages s.cfg (as ++ (m, p) :: bs)) s = rx m p (setFilter m true s) := by
  have hown {t : State} (hcfg : t.cfg = s.cfg) (hrst : (t.node m).rst = false) (hidle : t.idle m = true) :
      hear m (messages s.cfg [(m, p)]) t = rx m p (setFilter m true t) :=
    hcfg ▸ rxChar_message_addressee p hrst hidle
  have hfirst : hear m (messages s.cfg [(m, p)]) (hear m (messages s.cfg as) s) = rx m p (setFilter m true s) := by
    obtain h | h := hear_messages_other hw rfl hrst has <;> rw [h]
    · exact hown rfl hrst hidle
    · rw [hown (setFilter_cfg ..) (by rwa [setFilter_node_same]) (by rwa [setFilter_idle]), setFilter_setFilter]
  obtain ⟨-, hcfg, -, -, hrst', hclosed, -⟩ := rx_frame m p (setFilter m true s)
  rw [setFilter_node_same] at hrst' hclosed
  rw [List.append_cons, hear_messages_append, hear_messages_append, hfirst]
  obtain h | h := hear_messages_other hw (hcfg.trans (setFilter_cfg ..)) (hrst'.trans hrst) hbs
  · exact h
  · rw [h, setFilter_of_eq hclosed]

/-! ## RESET at its receivers -/

/-- The display's two RESET operations have one effect: DSP.REINIT clears the run flag too (41_display R138, R140). -/
theorem dspRunReset_eq_dspEndReset (s : State) : dspRunReset s = dspEndReset s := rfl

theorem dspRx_dReset {s : State} (h : s.dsp.st = .noTimer ∨ s.dsp.st = .timerRunning ∨ s.dsp.st = .timerEnded) :
    dspRx s.cfg.dReset s = dspEndReset s := by
  obtain h | h | h := h <;> simp [dspRx, selectDsp, h, dspRunReset_eq_dspEndReset]

theorem indRx_iReset (s : State) : indRx s.cfg.iReset s = indReset s := by
  simp [indRx, selectInd]

theorem actRx_aReset (s : State) : actRx s.cfg.aReset s = actReset s := by
  simp [actRx, selectAct]

theorem indReset_eq (s : State) :
    indReset s = { s with
      ind := { s.ind with
        st := .standby
        out := s.ind.out ++ (if s.indr.frame then [.indFrame false] else []) ++ [.indProgress 0] }
      indr := { progIdx := 0, blinkRun := false, frameRun := false, blinkPhase := false, frame := false } } := by
  rw [indReset, Laws.clearFrame_eq]
  rfl

theorem actReset_eq (s : State) :
    actReset s = { s with
      act := { s.act with
        st := .standby
        out := s.act.out ++ (if s.actr.actEn then [.actEnable false] else [])
          ++ (if s.actr.done then [.actDone false] else []) }
      actr := { speed := 0, dcCnt := 0, dcRun := false, actEn := false, done := false } } := by
  rw [actReset, Laws.setDone_eq, dcStop_eq]
  cases h : s.actr.done <;> simp [modActr, setSt, modNode, h]

/-! ## The keys of a running session (44_input R198, R199) -/

theorem selectKey_noTimer_keyReset {cfg : Cfg} (hw : cfg.wf = true) :
    selectKey cfg .noTimer cfg.keyReset = .runReset := by
  obtain h | h := wf_keyReset hw <;> simp [selectKey, h]

theorem inpRunDigit_eq (d : Digit) (s : State) :
    inpRunDigit d s = modNode .inp (fun x => { x with
      txq := x.txq ++ messages s.cfg [(.act, digitCode d), (.dsp, digitCode d)] }) s := by
  simp [inpRunDigit, tellDisplay, send, modNode, messages, Cfg.addr]

/-- The three messages of RESET_ALL: display, indicator, actuator. -/
def resetAll (cfg : Cfg) : List (NodeId × Byte) :=
  [(.dsp, cfg.dReset), (.ind, cfg.iReset), (.act, cfg.aReset)]

theorem inpRunReset_eq (s : State) :
    inpRunReset s = modNode .inp
      (fun x => { x with st := .standby, txq := x.txq ++ messages s.cfg (resetAll s.cfg) }) s := by
  simp [inpRunReset, tellDisplay, setSt, send, modNode, messages, resetAll, Cfg.addr]

/-- On a quiet bus an idle input node is left with the three messages to send. -/
theorem inpRunReset_readyToSend {s : State} (hquiet : ∀ n, (s.node n).txEn = false) (hidle : s.idle .inp = true)
    (hbyte : s.inp.rxPend = false) :
    ReadyToSend .inp (messages s.cfg (resetAll s.cfg)) (inpRunReset s) := by
  have hpins (n : NodeId) : ((inpRunReset s).node n).txEn = (s.node n).txEn := by cases n <;> rfl
  refine ⟨fun n => (hpins n).trans (hquiet n), ?_, hbyte, by simp⟩
  rw [inpRunReset_eq, modNode_node_same, idle_iff.mp hidle]
  rfl

section
variable {s : State} (hw : s.cfg.wf = true)
include hw

theorem hear_resetAll_dsp (hrst : s.dsp.rst = false) (hidle : s.idle .dsp = true)
    (hst : s.dsp.st = .noTimer ∨ s.dsp.st = .timerRunning ∨ s.dsp.st = .timerEnded) :
    hear .dsp (messages s.cfg (resetAll s.cfg)) s = dspEndReset (setFilter .dsp true s) :=
  (hear_messages_addressee (m := .dsp) (as := []) hw hrst hidle (by simp) (by simp)).trans
    (dspRx_dReset (s := setFilter .dsp true s) hst)

theorem hear_resetAll_ind (hrst : s.ind.rst = false) (hidle : s.idle .ind = true) :
    hear .ind (messages s.cfg (resetAll s.cfg)) s = indReset (setFilter .ind true s) :=
  (hear_messages_addressee (m := .ind) (as := [(.dsp, s.cfg.dReset)]) hw hrst hidle (by simp) (by simp)).trans
    (indRx_iReset (setFilter .ind true s))

theorem hear_resetAll_act (hrst : s.act.rst = false) (hidle : s.idle .act = true) :
    hear .act (messages s.cfg (resetAll s.cfg)) s = actReset (setFilter .act true s) :=
  (hear_messages_addressee (m := .act) (as := [(.dsp, s.cfg.dReset), (.ind, s.cfg.iReset)]) (bs := []) hw hrst hidle
    (by simp) (by simp)).trans (actRx_aReset (setFilter .act true s))

end

end Sys2Proof.Machine
end

section
/-! SUPPORT. Proofs of family 44_input: the mirror's walk, the keys forwarded and ignored, and RESET_ALL on the bus
(44_input R191 to R201, 60_exceptions R255). -/

namespace Sys2Proof.Machine

/-- Settles O60: INP.RUN_RESET queues three messages; their six slots, seen at each node, are the RESET of the node's
role, and cost the input node its queue alone. -/
theorem resetKeyResetsAllFourNodes : Obligations.ResetKeyResetsAllFourNodes := by
  intro s hw hlisten hquiet hst
  have hidle (n : NodeId) : s.idle n = true := (hquiet n).1
  have hempty (n : NodeId) : (s.node n).txq = [] := idle_iff.mp (hidle n)
  have hready := inpRunReset_readyToSend (fun n => (hlisten n).2) (hidle .inp) (hquiet .inp).2
  have hother {m : NodeId} (hm : m ≠ .inp) :=
    slots_agree_other hm (messages s.cfg (resetAll s.cfg)) (inpRunReset s)
  obtain ⟨hinp, -, -⟩ := slots_agree_own hready
  obtain ⟨hdsp, hdisp, -⟩ := hear_resetAll_dsp (s := inpRunReset s) hw (hlisten .dsp).1 (hidle .dsp) hst ▸
    hother (m := .dsp) (by decide)
  obtain ⟨hind, hindr, -⟩ := hear_resetAll_ind (s := inpRunReset s) hw (hlisten .ind).1 (hidle .ind) ▸
    hother (m := .ind) (by decide)
  obtain ⟨hact, hactr, -⟩ := hear_resetAll_act (s := inpRunReset s) hw (hlisten .act).1 (hidle .act) ▸
    hother (m := .act) (by decide)
  rw [indReset_eq] at hind hindr
  rw [actReset_eq] at hact hactr
  refine ⟨_, (execAll_cons_of_next rfl _).trans (execAll_slots hready), fun n => ?_, hdisp, hindr, hactr⟩
  rw [idle_iff]
  cases n with
  | inp => exact ⟨congrArg Node.st hinp, congrArg Node.txq hinp⟩
  | dsp => exact ⟨congrArg Node.st hdsp, (congrArg Node.txq hdsp).trans (hempty .dsp)⟩
  | ind => exact ⟨congrArg Node.st hind, (congrArg Node.txq hind).trans (hempty .ind)⟩
  | act => exact ⟨congrArg Node.st hact, (congrArg Node.txq hact).trans (hempty .act)⟩

/-- Settles O31: the rows of `Standby`, `SelectSpeed` and `SelectMode`; the effects are their definitions. -/
theorem inputWalksToMode : Obligations.InputWalksToMode := fun _ d _ =>
  ⟨Laws.digitCode_toNat d, rfl, rfl, rfl, rfl, rfl, rfl, fun hd => congrArg inpInstr (if_neg hd), rfl, rfl, rfl⟩

/-- Settles O32: the three rows of `EnterTimer`; the effects are their definitions. -/
theorem inputForwardsTimerEntry : Obligations.InputForwardsTimerEntry := fun _ _ =>
  ⟨rfl, rfl, rfl, rfl, rfl, rfl⟩

/-- Settles O33: the two rows that `NoTimer` and `TimerRunning` share, and the messages of FWD_DIGIT and RESET_ALL. -/
theorem inputForwardsWhileRunning : Obligations.InputForwardsWhileRunning := by
  intro d s hw
  have hreset := congrArg inpInstr (selectKey_noTimer_keyReset hw)
  exact ⟨rfl, rfl, congrArg Host.Outcome.next (inpRunDigit_eq d s), hreset, hreset,
    congrArg Host.Outcome.next (inpRunReset_eq s)⟩

/-- Settles O34: the keys that match no other row of their state. -/
theorem inputIgnoresTheRest : Obligations.InputIgnoresTheRest := by
  intro k p st s _
  have hign {st : SessionState} (h : inpIgnores s.cfg st k = true) : keyInstr s.cfg st k = .inpIgn k :=
    congrArg inpInstr (selectKey_of_inpIgnores h)
  refine ⟨fun hk => ?_, hign rfl, rfl, rfl, rfl⟩
  have hnon : k.nonDigit = true := by obtain rfl | rfl := hk <;> rfl
  exact ⟨hign hnon, hign hnon, fun hreset =>
    ⟨hign (by simp [inpIgnores, hnon, hreset]), hign (by simp [inpIgnores, hnon, hreset])⟩⟩

end Sys2Proof.Machine
end

section
/-! SUPPORT. The indicator's table (30_encoding R85) and its two local timers (45_indicator R218, R219). -/

namespace Sys2Proof.Machine

/-! ## The table: the codes accepted in every state -/

@[simp] theorem selectInd_iReset (cfg : Cfg) (st : SessionState) : selectInd cfg st cfg.iReset = .reset :=
  if_pos rfl

theorem selectInd_iStartNt {cfg : Cfg} (hw : cfg.wf = true) (st : SessionState) :
    selectInd cfg st cfg.iStartNt = .startNt := by
  obtain ⟨hreset, -⟩ := wf_indicatorCodes hw
  simp [selectInd, hreset]

theorem selectInd_iStartWt {cfg : Cfg} (hw : cfg.wf = true) (st : SessionState) :
    selectInd cfg st cfg.iStartWt = .startWt := by
  obtain ⟨-, ⟨hreset, hstartNt⟩, -⟩ := wf_indicatorCodes hw
  simp [selectInd, hreset, hstartNt]

/-! ## The table: the other bytes -/

/-- Past its first three rows the table divides by the state alone. -/
theorem selectInd_of_ne {cfg : Cfg} {p : Byte} (hreset : p ≠ cfg.iReset) (hstartNt : p ≠ cfg.iStartNt)
    (hstartWt : p ≠ cfg.iStartWt) (st : SessionState) :
    selectInd cfg st p =
      if st = .timerRunning then
        if p = cfg.iEnded then .ended else if p = cfg.iProgress then .prog else .progAny p
      else .ign p := by
  rw [selectInd, if_neg hreset, if_neg hstartNt, if_neg hstartWt]

theorem selectInd_timerRunning_iEnded {cfg : Cfg} (hw : cfg.wf = true) :
    selectInd cfg .timerRunning cfg.iEnded = .ended := by
  obtain ⟨-, -, ⟨hreset, hstartNt, hstartWt⟩, -⟩ := wf_indicatorCodes hw
  rw [selectInd_of_ne hreset hstartNt hstartWt, if_pos rfl, if_pos rfl]

theorem selectInd_timerRunning_iProgress {cfg : Cfg} (hw : cfg.wf = true) :
    selectInd cfg .timerRunning cfg.iProgress = .prog := by
  obtain ⟨-, -, -, hreset, hstartNt, hstartWt, hended⟩ := wf_indicatorCodes hw
  rw [selectInd_of_ne hreset hstartNt hstartWt, if_pos rfl, if_neg hended, if_pos rfl]

theorem selectInd_timerRunning_of_ne {cfg : Cfg} {p : Byte} (hreset : p ≠ cfg.iReset) (hstartNt : p ≠ cfg.iStartNt)
    (hstartWt : p ≠ cfg.iStartWt) (hprogress : p ≠ cfg.iProgress) (hended : p ≠ cfg.iEnded) :
    selectInd cfg .timerRunning p = .progAny p := by
  rw [selectInd_of_ne hreset hstartNt hstartWt, if_pos rfl, if_neg hended, if_neg hprogress]

theorem selectInd_of_ne_timerRunning {cfg : Cfg} {p : Byte} {st : SessionState} (hst : st ≠ .timerRunning)
    (hreset : p ≠ cfg.iReset) (hstartNt : p ≠ cfg.iStartNt) (hstartWt : p ≠ cfg.iStartWt) :
    selectInd cfg st p = .ign p := by
  rw [selectInd_of_ne hreset hstartNt hstartWt, if_neg hst]

/-! ## The local timers (45_indicator R218, R219) -/

theorem indBlink_stopped {s : State} (h : s.indr.blinkRun = false) : indBlink s = s := by
  simp [indBlink, h]

theorem indBlink_running {s : State} (h : s.indr.blinkRun = true) :
    indBlink s = { s with
      ind := { s.ind with out := s.ind.out ++ [.indBlink (!s.indr.blinkPhase)] }
      indr := { s.indr with blinkPhase := !s.indr.blinkPhase } } :=
  if_pos h

theorem indFrame_stopped {s : State} (h : s.indr.frameRun = false) : indFrame s = s := by
  simp [indFrame, h]

theorem indFrame_running {s : State} (h : s.indr.frameRun = true) :
    indFrame s = { s with
      ind := { s.ind with out := s.ind.out ++ [.indFrame (!s.indr.frame)] }
      indr := { s.indr with frame := !s.indr.frame } } :=
  if_pos h

end Sys2Proof.Machine
end

section
/-! SUPPORT. Proofs of family 45_indicator: the session's start, progress, end and reset, and the two local timers
(45_indicator R211 to R219). -/

namespace Sys2Proof.Machine

/-- Settles O37: the rows of `TimerRunning`; the new index is `advanceProg` of the old, which counts below 6 and is
the identity from there on. -/
theorem indicatorProgressSaturates : Obligations.IndicatorProgressSaturates := fun _ s hw =>
  ⟨congrArg indInstr (selectInd_timerRunning_iProgress hw),
    fun hreset hstartNt hstartWt hprogress hended =>
      congrArg indInstr (selectInd_timerRunning_of_ne hreset hstartNt hstartWt hprogress hended),
    rfl, advanceProg s.indr.progIdx,
    fun hbelow => (advanceProg_toNat _).trans (if_pos hbelow), fun hfull => if_neg (Nat.not_lt.mpr hfull), rfl⟩

/-- Settles O35: IND_FRAME(0) comes with a change of the frame alone. -/
theorem indicatorReset : Obligations.IndicatorReset := fun st s =>
  ⟨congrArg indInstr (selectInd_iReset s.cfg st), congrArg Host.Outcome.next (indReset_eq s)⟩

/-- Settles O36: the rows of the two START codes; the effects are their definitions. -/
theorem indicatorStarts : Obligations.IndicatorStarts := fun st _ hw =>
  ⟨congrArg indInstr (selectInd_iStartNt hw st), rfl, congrArg indInstr (selectInd_iStartWt hw st), rfl⟩

/-- Settles O38: the row of I_ENDED, and the last row of the other states; the effects are their definitions. -/
theorem indicatorEndedAndIgnored : Obligations.IndicatorEndedAndIgnored := fun _ _ _ hw =>
  ⟨congrArg indInstr (selectInd_timerRunning_iEnded hw), rfl,
    fun hst hreset hstartNt hstartWt =>
      congrArg indInstr (selectInd_of_ne_timerRunning hst hreset hstartNt hstartWt), rfl⟩

/-- Settles O39: each timer running and stopped. -/
theorem indicatorTimersToggle : Obligations.IndicatorTimersToggle := fun _ =>
  ⟨fun hrun => congrArg Host.Outcome.next (indBlink_running hrun),
    fun hstop => congrArg Host.Outcome.next (indBlink_stopped hstop),
    fun hrun => congrArg Host.Outcome.next (indFrame_running hrun),
    fun hstop => congrArg Host.Outcome.next (indFrame_stopped hstop)⟩

end Sys2Proof.Machine
end

section
/-! SUPPORT. The actuator's table (30_encoding R86) and the next states of ACT.ENDED and ACT.SPEED
(46_actuator R232, R233). -/

namespace Sys2Proof.Machine

/-! ## The table's rows -/

@[simp] theorem selectAct_aReset (cfg : Cfg) (st : SessionState) : selectAct cfg st cfg.aReset = .reset :=
  if_pos rfl

theorem selectAct_aEnded {cfg : Cfg} (hw : cfg.wf = true) (st : SessionState) :
    selectAct cfg st cfg.aEnded = if st = .noTimer then .ended else .ign cfg.aEnded := by
  obtain ⟨-, -, hne⟩ := wf_actuatorCodes hw
  rw [selectAct, if_neg hne.symm, if_pos rfl]

/-- Past its first two rows the table divides by the digit alone. -/
theorem selectAct_of_ne {cfg : Cfg} {p : Byte} (hreset : p ≠ cfg.aReset) (hended : p ≠ cfg.aEnded)
    (st : SessionState) :
    selectAct cfg st p = (digitOf p).elim (.ign p) .speed := by
  rw [selectAct, if_neg hreset, if_neg hended]
  cases digitOf p <;> rfl

theorem selectAct_digitCode {cfg : Cfg} (hw : cfg.wf = true) (st : SessionState) (d : Digit) :
    selectAct cfg st (digitCode d) = .speed d := by
  obtain ⟨hreset, hended, -⟩ := wf_actuatorCodes hw
  rw [selectAct_of_ne (digitCode_ne hreset d) (digitCode_ne hended d), Laws.digitOf_digitCode, Option.elim_some]

theorem selectAct_of_not_digit {cfg : Cfg} {p : Byte} (hreset : p ≠ cfg.aReset) (hended : p ≠ cfg.aEnded)
    (hdigit : isDigitCode p = false) (st : SessionState) : selectAct cfg st p = .ign p := by
  rw [selectAct_of_ne hreset hended, (Laws.digitOf_eq_none_iff p).mpr hdigit, Option.elim_none]

/-! ## The effects -/

theorem actEnded_eq (s : State) :
    actEnded s = { s with
      act := { s.act with
        st := .timerEnded
        out := s.act.out ++ (if s.actr.actEn then [.actEnable false] else [])
          ++ (if s.actr.done then [] else [.actDone true]) }
      actr := { s.actr with dcRun := false, actEn := false, done := true } } := by
  rw [actEnded, Laws.setDone_eq, dcStop_eq]
  cases h : s.actr.done <;> simp [setSt, modNode, h]

theorem actSpeed_standby {d : Digit} {s : State} (h : s.act.st = .standby) :
    actSpeed d s = { s with
      act := { s.act with st := .noTimer }
      actr := { s.actr with speed := BitVec.ofNat 4 d.val, dcRun := true } } :=
  if_pos h

theorem actSpeed_of_ne_standby {d : Digit} {s : State} (h : s.act.st ≠ .standby) :
    actSpeed d s = { s with actr := { s.actr with speed := BitVec.ofNat 4 d.val } } :=
  if_neg h

end Sys2Proof.Machine
end

section
/-! SUPPORT. Proofs of family 46_actuator: the session's reset and end, the speed levels, the ignored bytes and the
tick (46_actuator R231 to R235). -/

namespace Sys2Proof.Machine

/-- Settles O40: the rows of the two codes; both effects stop the generator and set the done flag, each with its
output on a change alone. -/
theorem actuatorResetAndEnded : Obligations.ActuatorResetAndEnded := fun st s hw =>
  ⟨congrArg actInstr (selectAct_aReset s.cfg st), congrArg Host.Outcome.next (actReset_eq s),
    congrArg actInstr ((selectAct_aEnded hw .noTimer).trans (if_pos rfl)),
    congrArg Host.Outcome.next (actEnded_eq s)⟩

/-- Settles O41: the digit row, ACT.SPEED inside and outside `Standby`, and the two ways to ACT.IGN; ACT.IGN and
ACT.TICK are their definitions. -/
theorem actuatorSpeedIgnoredTick : Obligations.ActuatorSpeedIgnoredTick := by
  intro p d st s hw
  refine ⟨fun hp => ?_, fun hst => congrArg Host.Outcome.next (actSpeed_standby hst),
    fun hst => congrArg Host.Outcome.next (actSpeed_of_ne_standby hst), fun hst => ?_,
    fun hreset hended hp => congrArg actInstr (selectAct_of_not_digit hreset hended (decide_eq_false hp) st),
    rfl, rfl, _, rfl⟩
  · rw [eq_digitCode_of_toNat hp]
    exact congrArg actInstr (selectAct_digitCode hw st d)
  · exact congrArg actInstr ((selectAct_aEnded hw st).trans (if_neg hst))

end Sys2Proof.Machine
end

section
/-! SUPPORT. Proofs of family 60_exceptions: the bus discipline (60_exceptions R265, 41_display R150, 30_encoding R81).
Handlers append whole messages to addressees of their node, a slot drops the head, and the input node hears nothing
that opens its filter. -/

namespace Sys2Proof.Machine

/-! ## Queues of whole messages (30_encoding R81) -/

/-- The nodes that node `n` addresses (60_exceptions R265, 41_display R150). -/
def addressees : NodeId → List NodeId
  | .inp => [.dsp, .ind, .act]
  | .dsp => [.ind, .act]
  | .ind => []
  | .act => []

/-- `q'` is the queue `q` of node `n` with messages to addressees of `n` appended. -/
def Extends (cfg : Cfg) (n : NodeId) (q q' : List Char9) : Prop :=
  ∃ ms : List (NodeId × Byte), (∀ x ∈ ms, x.1 ∈ addressees n) ∧ q' = q ++ messages cfg ms

theorem extends_refl (cfg : Cfg) (n : NodeId) (q : List Char9) : Extends cfg n q q :=
  ⟨[], by simp, by simp [messages]⟩

theorem extends_of_eq {cfg : Cfg} {n : NodeId} {q q' : List Char9} (h : q' = q) : Extends cfg n q q' :=
  h ▸ extends_refl cfg n q

theorem wholeMessages_messages_append {q : List Char9} (cfg : Cfg) (ms : List (NodeId × Byte))
    (h : wholeMessages q = true) : wholeMessages (q ++ messages cfg ms) = true := by
  induction q using wholeMessages.induct with
  | case1 =>
    induction ms with
    | nil => rfl
    | cons x ms ih => exact ih
  | case2 => cases h
  | case3 a d q ih =>
    simp only [wholeMessages, Bool.and_eq_true] at h
    obtain ⟨hhead, hq⟩ := h
    simpa [wholeMessages, ih hq] using hhead

theorem queueShape_iff {q : List Char9} :
    queueShape q = true
      ↔ wholeMessages q = true ∨ ∃ d rest, q = d :: rest ∧ d.marker = false ∧ wholeMessages rest = true := by
  cases q <;> simp [queueShape, wholeMessages]

theorem queueShape_of_extends {cfg : Cfg} {n : NodeId} {q q' : List Char9} (h : Extends cfg n q q')
    (hq : queueShape q = true) : queueShape q' = true := by
  obtain ⟨ms, -, rfl⟩ := h
  rw [queueShape_iff] at hq ⊢
  obtain hq | ⟨d, rest, rfl, hd, hrest⟩ := hq
  · exact .inl (wholeMessages_messages_append cfg ms hq)
  · exact .inr ⟨d, rest ++ messages cfg ms, rfl, hd, wholeMessages_messages_append cfg ms hrest⟩

/-- What is left of a queue after a slot is a queue again. -/
theorem queueShape_tail {c : Char9} {rest : List Char9} (h : queueShape (c :: rest) = true) :
    queueShape rest = true := by
  rw [queueShape_iff] at h ⊢
  obtain h | ⟨d, q, he, -, hq⟩ := h
  · cases rest with
    | nil => cases h
    | cons d q =>
      simp only [wholeMessages, Bool.and_eq_true, Bool.not_eq_true'] at h
      obtain ⟨⟨-, hd⟩, hq⟩ := h
      exact .inr ⟨d, q, rfl, hd, hq⟩
  · cases he
    exact .inl hq

theorem addressesOnly_of_extends {cfg : Cfg} {n : NodeId} {q q' : List Char9} (h : Extends cfg n q q')
    (hq : addressesOnly ((addressees n).map cfg.addr) q = true) :
    addressesOnly ((addressees n).map cfg.addr) q' = true := by
  obtain ⟨ms, hms, rfl⟩ := h
  have hnew : addressesOnly ((addressees n).map cfg.addr) (messages cfg ms) = true := by
    simp only [addressesOnly, messages, message, List.all_flatMap, List.all_eq_true, List.all_cons, List.all_nil]
    intro x hx
    have haddr := List.mem_map_of_mem (f := cfg.addr) (hms x hx)
    simpa [addrCh, dataCh] using haddr
  rw [addressesOnly, List.all_append, Bool.and_eq_true]
  exact ⟨hq, hnew⟩

/-! ## The handlers append messages to addressees of their node -/

/-- Node `n`'s queue in `t` is its queue in `s` with messages to its addressees appended. -/
abbrev Sends (n : NodeId) (s t : State) : Prop :=
  Extends s.cfg n (s.node n).txq (t.node n).txq

/-- The passive nodes' and the input node's receive handlers send nothing (10_state R25, 44_input R201). -/
theorem rx_txq {m : NodeId} (hm : m ≠ .dsp) (p : Byte) (s : State) :
    ((rx m p s).node m).txq = (s.node m).txq := by
  cases m with
  | inp => rfl
  | dsp => exact absurd rfl hm
  | ind => exact indRx_txq p s
  | act => exact actRx_txq p s

theorem bcastStart_txq (c : Byte) (s : State) :
    (bcastStart c s).dsp.txq = s.dsp.txq ++ messages s.cfg [(.ind, c), (.act, speedCode s.disp.speed)] := by
  rw [bcastStart_eq]
  rfl

theorem bcastEnded_txq (s : State) :
    (bcastEnded s).dsp.txq = s.dsp.txq ++ messages s.cfg [(.ind, s.cfg.iEnded), (.act, s.cfg.aEnded),
      (.ind, s.cfg.iEnded), (.act, s.cfg.aEnded)] := by
  rw [bcastEnded_eq]
  rfl

/-- The display's receive handler sends the two start messages or nothing (41_display R133, R136, R148). -/
theorem dspRx_sends (p : Byte) (s : State) : Sends .dsp s (dspRx p s) := by
  unfold dspRx
  cases selectDsp s.cfg s.dsp.st p with
  | modeNt d => exact ⟨_, by simp [addressees], bcastStart_txq ..⟩
  | tOk => exact ⟨_, by simp [addressees], bcastStart_txq ..⟩
  | tDigit d =>
    simp only [dspTDigit]
    split <;> exact extends_refl ..
  | _ => exact extends_refl ..

theorem rx_sends (m : NodeId) (p : Byte) (s : State) : Sends m s (rx m p s) := by
  by_cases hm : m = .dsp
  · subst hm
    exact dspRx_sends p s
  · exact extends_of_eq (rx_txq hm p s)

/-- The display's tick handler sends the four finish messages, a PROGRESS, or nothing (41_display R146, R149). -/
theorem dspTick_sends (s : State) : Sends .dsp s (dspTick s) := by
  have hq : (ctTick s).dsp.txq = s.dsp.txq := by rw [ctTick_dsp]
  have hcfg : (ctTick s).cfg = s.cfg := localTo_cfg (handlerFrame_local (ctTick_frame s))
  rw [Sends, node_dsp, ← hq, ← hcfg]
  obtain he | ⟨bar, per, he⟩ | he := dspTick_cases s <;> rw [he]
  · exact ⟨_, by simp [addressees], bcastEnded_txq _⟩
  · cases per with
    | false => cases bar <;> exact extends_refl ..
    | true => cases bar <;> exact ⟨[(.ind, (ctTick s).cfg.iProgress)], by simp [addressees], rfl⟩
  · exact extends_refl ..

/-- The input node's key operations send to the other three (44_input R191 to R199). -/
theorem key_sends {k : Key} {s t : State} (h : exec (keyInstr s.cfg s.inp.st k) s = .next t) : Sends .inp s t := by
  unfold keyInstr at h
  generalize selectKey s.cfg s.inp.st k = op at h
  cases op <;> cases h
  case wake | speed | modeNt | modeT | tDel | tOk | tDigit =>
    exact ⟨[(.dsp, _)], by simp [addressees], rfl⟩
  case runDigit d =>
    rw [inpRunDigit_eq]
    exact ⟨_, by simp [addressees], rfl⟩
  case runReset =>
    rw [inpRunReset_eq]
    exact ⟨_, by simp [addressees, resetAll], rfl⟩
  case ign => exact extends_refl ..

/-! ## The invariant of one node's queue -/

/-- What the bus discipline says of the queue of node `m`. -/
structure QueueOk (m : NodeId) (s : State) : Prop where
  shape : queueShape (s.node m).txq = true
  addressed : addressesOnly ((addressees m).map s.cfg.addr) (s.node m).txq = true
  silent : addressees m = [] → (s.node m).txq = []

theorem queueOk_of_empty {m : NodeId} {s : State} (h : (s.node m).txq = []) : QueueOk m s :=
  ⟨by rw [h]; rfl, by rw [h]; rfl, fun _ => h⟩

theorem queueOk_of_sends {m : NodeId} {s t : State} (h : Sends m s t) (hcfg : t.cfg = s.cfg) (hs : QueueOk m s) :
    QueueOk m t := by
  refine ⟨queueShape_of_extends h hs.shape, hcfg ▸ addressesOnly_of_extends h hs.addressed, fun hm => ?_⟩
  obtain ⟨ms, hms, hq⟩ := h
  obtain rfl : ms = [] := List.eq_nil_iff_forall_not_mem.mpr fun x hx => by simpa [hm] using hms x hx
  exact hq.trans (by rw [hs.silent hm]; rfl)

theorem queueOk_of_eq {m : NodeId} {s t : State} (h : (t.node m).txq = (s.node m).txq) (hcfg : t.cfg = s.cfg)
    (hs : QueueOk m s) : QueueOk m t :=
  queueOk_of_sends (extends_of_eq h) hcfg hs

theorem queueOk_congr {m : NodeId} {s t : State} (h : agreesAt m s t) (hs : QueueOk m s) : QueueOk m t :=
  queueOk_of_eq (by rw [h.1]) (agreesAt_cfg h) hs

theorem queueOk_dropHead {m : NodeId} {s : State} {c : Char9} {rest : List Char9} (hq : (s.node m).txq = c :: rest)
    (hs : QueueOk m s) : QueueOk m (modNode m (dropHead rest) s) := by
  obtain ⟨hshape, haddr, hsilent⟩ := hs
  rw [hq] at hshape haddr hsilent
  refine ⟨?_, ?_, fun hm => absurd (hsilent hm) (List.cons_ne_nil _ _)⟩ <;>
    simp only [modNode_node_same, modNode_cfg, dropHead]
  · exact queueShape_tail hshape
  · rw [addressesOnly, List.all_cons, Bool.and_eq_true] at haddr
    exact haddr.2

theorem rx_queueOk {m : NodeId} {s : State} (p : Byte) (hs : QueueOk m s) : QueueOk m (rx m p s) :=
  queueOk_of_sends (rx_sends m p s) (localTo_cfg (rx_local m p s)) hs

theorem keepByte_txq (m : NodeId) (b : Byte) (s : State) : ((keepByte m b s).node m).txq = (s.node m).txq := by
  unfold keepByte overrun
  split
  · split
    · rfl
    · simp [setRxBuf]
  · simp [setRxPend, setRxBuf]

theorem keepByte_queueOk {m : NodeId} {s : State} (b : Byte) (hs : QueueOk m s) : QueueOk m (keepByte m b s) :=
  queueOk_of_eq (keepByte_txq m b s) (localTo_cfg (keepByte_local m b s)) hs

/-- A character heard keeps the discipline of the hearer's queue (40_framer R113). -/
theorem rxChar_queueOk {m : NodeId} {s : State} (c : Char9) (hs : QueueOk m s) : QueueOk m (rxChar m c s) := by
  have hfilter (v : Bool) : QueueOk m (setFilter m v s) := queueOk_of_eq (by simp) (by simp) hs
  unfold rxChar rxa rxdDrop rxdAcc acceptByte
  repeat' split
  · exact hs
  · exact hfilter _
  · exact hfilter _
  · exact rx_queueOk _ (hfilter true)
  · exact keepByte_queueOk _ (hfilter true)

theorem takeByte_queueOk {n : NodeId} {s : State} (hs : QueueOk n s) : QueueOk n (takeByte n s) := by
  unfold takeByte
  split
  · exact rx_queueOk _ (queueOk_of_eq (t := setRxPend n false s) (by simp [setRxPend]) (by simp [setRxPend]) hs)
  · exact hs

theorem dspTick_queueOk {s : State} (hs : QueueOk .dsp s) : QueueOk .dsp (dspTick s) :=
  queueOk_of_sends (dspTick_sends s) (localTo_cfg (handlerFrame_local (dspTick_frame s))) hs

theorem takeTick_queueOk {s : State} (hs : QueueOk .dsp s) : QueueOk .dsp (takeTick s) := by
  unfold takeTick pendingTick
  split
  · exact dspTick_queueOk (queueOk_of_eq (s := s) rfl rfl hs)
  · exact hs

theorem idleEntry_queueOk {n : NodeId} {s : State} (hs : QueueOk n s) : QueueOk n (idleEntry n s) := by
  cases n with
  | inp | ind | act => exact takeByte_queueOk hs
  | dsp =>
    obtain ⟨k, he | he⟩ := idleEntry_dsp_cases s <;> rw [he]
    · exact takeTick_queueOk (takeByte_queueOk (queueOk_of_eq (s := s) rfl rfl hs))
    · exact takeByte_queueOk (takeTick_queueOk (queueOk_of_eq (s := s) rfl rfl hs))

/-- Everything a step can do at a node keeps the discipline of its queue. -/
theorem nodeStep_queueOk {m : NodeId} {i : Input} {s t : State} (h : NodeStep m i s t) (hs : QueueOk m s) :
    QueueOk m t := by
  cases h with
  | untouched _ h => exact queueOk_congr h hs
  | hears c _ h => exact queueOk_congr h (rxChar_queueOk c hs)
  | @sends _ _ u _ c rest hq hu ht =>
    have hdrop : QueueOk m u := queueOk_congr hu (queueOk_dropHead hq hs)
    subst ht
    split
    · exact idleEntry_queueOk hdrop
    · exact hdrop
  | accepts p => exact rx_queueOk p hs
  | keeps p => exact keepByte_queueOk p hs
  | key k _ h => exact queueOk_of_sends (key_sends h) (localTo_cfg (exec_local (homeNode_keyInstr _ _ k) h)) hs
  | tick => exact dspTick_queueOk hs
  | keepsTick => exact queueOk_of_eq (s := s) rfl rfl hs
  | duty => exact queueOk_of_eq (dcTick_txq s) (localTo_cfg (handlerFrame_local (dcTick_frame s))) hs
  | blink => exact queueOk_of_eq (indBlink_txq s) (localTo_cfg (handlerFrame_local (indBlink_frame s))) hs
  | frame => exact queueOk_of_eq (indFrame_txq s) (localTo_cfg (handlerFrame_local (indFrame_frame s))) hs
  | held => exact queueOk_of_empty (by rw [holdReset, modNode_node_same]; rfl)
  | released hrst => exact queueOk_of_empty (by rw [releaseReset, if_pos hrst, modNode_node_same]; rfl)

/-! ## A step that reads an event (60_exceptions R257, R258) -/

/-- Everything a step that reads an event can do: a slot, a handler at one node, a tick that waits, a power-on
reset. -/
inductive EventStep (s : State) : State → Prop
  | slot {n c rest} (hq : (s.node n).txq = c :: rest) : EventStep s (slot n c rest s)
  | handler {n t} (h : handlerFrame n s t) : EventStep s t
  | keepsTick : EventStep s (keepTick s)
  | held {n} : EventStep s (holdReset n s)
  | released {n} : EventStep s (releaseReset n s)

theorem eventStep_refl (s : State) : EventStep s s :=
  .handler (handlerFrame_refl .inp s)

theorem exec_selectEvent_eventStep {e : Event} {op : Instr} {s t : State} (hsel : selectEvent e s = some op)
    (h : exec op s = .next t) : EventStep s t := by
  cases e <;> simp only [selectEvent] at hsel
  case overlap | resetOn | resetOff => cases hsel
  all_goals split at hsel <;> cases hsel
  case slot n _ =>
    obtain ⟨-, rfl⟩ | ⟨c, rest, hq, -, rfl⟩ := execTxc_cases h
    · exact eventStep_refl t
    · exact .slot hq
  case key k _ =>
    obtain ⟨-, hframe, -⟩ := exec_keyInstr h
    exact .handler hframe
  case ctTick => cases h; exact .handler (dspTick_frame s)
  case dcTick => cases h; exact .handler (dcTick_frame s)
  case blinkTick => cases h; exact .handler (indBlink_frame s)
  case frameTick => cases h; exact .handler (indFrame_frame s)

theorem absorbEvent_eventStep {e : Event} {s t : State} (h : absorbEvent e s = .next t) : EventStep s t := by
  cases e
  case overlap a b =>
    rw [overlapSlots_next h]
    exact eventStep_refl s
  case ctTick =>
    simp only [absorbEvent] at h
    split at h <;> cases h
    · exact eventStep_refl s
    · exact .keepsTick
  case resetOn n => cases h; exact .held
  case resetOff n => cases h; exact .released
  all_goals
    cases h
    exact eventStep_refl s

theorem step_eventStep {s t : State} {e : Event} (h : step s = .next t) (he : (nextInput s).1 = .ev e) :
    EventStep (nextInput s).2 t := by
  unfold step at h
  rw [if_pos (step_wf h), he] at h
  split at h
  · next hsel => exact exec_selectEvent_eventStep hsel h
  · exact absorbEvent_eventStep h

/-- A step that reads an event reads no further entry of the script. -/
theorem eventStep_inputs {s t : State} (h : EventStep s t) : t.inputs = s.inputs := by
  cases h with
  | @slot n c rest _ =>
    obtain ⟨-, -, hslot⟩ := slot_local_sent n c rest s
    exact hslot.trans (sent_sameSchedule n c rest s).1
  | handler h =>
    obtain ⟨-, -, hinputs, -⟩ := h
    exact hinputs
  | keepsTick => rfl
  | @held n =>
    obtain ⟨-, -, hinputs⟩ := holdReset_local n s
    exact hinputs
  | @released n =>
    obtain ⟨-, -, hinputs⟩ := releaseReset_local n s
    exact hinputs

/-- A script of events alone gives an event next, and is one after it. -/
theorem nextInput_event {s : State} (h : s.inputs.all isEvent = true) :
    (∃ e, (nextInput s).1 = .ev e) ∧ (nextInput s).2.inputs.all isEvent = true := by
  unfold nextInput
  split
  · next i rest hin =>
    rw [hin, List.all_cons, Bool.and_eq_true] at h
    obtain ⟨hi, hrest⟩ := h
    cases i with
    | ev e => exact ⟨⟨e, rfl⟩, hrest⟩
    | char | byte => cases hi
  · exact ⟨⟨_, rfl⟩, h⟩

/-! ## Nothing ever reaches the input node (60_exceptions R265) -/

/-- The input node's filter is closed, and no byte waits there. -/
def InputClosed (s : State) : Prop :=
  s.inp.filter = true ∧ s.inp.rxPend = false

theorem inputClosed_congr {s t : State} (h : agreesAt .inp s t) (hs : InputClosed s) : InputClosed t := by
  obtain ⟨hnode, -, -⟩ := h
  have hnode : t.inp = s.inp := hnode
  rwa [InputClosed, hnode]

/-- A character that is not the input node's address leaves it closed (40_framer R114, R115). -/
theorem rxChar_inputClosed {c : Char9} {s : State} (hc : c.marker = true → c.byte ≠ s.cfg.addrInp)
    (hs : InputClosed s) : InputClosed (rxChar .inp c s) := by
  obtain ⟨hfilter, hpend⟩ := hs
  unfold rxChar
  split
  · exact ⟨hfilter, hpend⟩
  · split
    · next hm => exact ⟨decide_eq_true (hc hm), hpend⟩
    · rw [node_inp, if_pos hfilter]
      exact ⟨rfl, hpend⟩

/-- The address characters in a queue name addressees of its node, and so never the input node. -/
theorem head_ne_addrInp {n : NodeId} {c : Char9} {rest : List Char9} {s : State} (hw : s.cfg.wf = true)
    (hs : QueueOk n s) (hq : (s.node n).txq = c :: rest) (hm : c.marker = true) : c.byte ≠ s.cfg.addrInp := by
  have haddr := hs.addressed
  rw [hq, addressesOnly, List.all_cons, Bool.and_eq_true] at haddr
  obtain ⟨k, hk, hc⟩ : ∃ k ∈ addressees n, s.cfg.addr k = c.byte := by simpa [hm] using haddr.1
  rw [← hc]
  refine (addr_injective hw).ne (a₂ := .inp) ?_
  rintro rfl
  cases n <;> simp [addressees] at hk

theorem slot_inputClosed {n : NodeId} {c : Char9} {rest : List Char9} {s : State} (hw : s.cfg.wf = true)
    (hqueue : QueueOk n s) (hq : (s.node n).txq = c :: rest) (hs : InputClosed s) :
    InputClosed (slot n c rest s) := by
  by_cases hn : n = .inp
  · subst hn
    exact inputClosed_congr (slot_agrees_own_of_none c rest hs.2 nofun) hs
  · exact inputClosed_congr (slot_agrees_other (Ne.symm hn) c rest s)
      (rxChar_inputClosed (head_ne_addrInp hw hqueue hq) hs)

/-- What touches another node than the input node, or resets it, leaves it closed. -/
theorem inputClosed_of_local {n : NodeId} {s t : State} (h : localTo n s t)
    (hown : n = .inp → InputClosed t) (hs : InputClosed s) : InputClosed t := by
  by_cases hn : n = .inp
  · exact hown hn
  · exact inputClosed_congr (agreesAt_of_local (Ne.symm hn) h) hs

theorem eventStep_inputClosed {s t : State} (hw : s.cfg.wf = true) (hqueue : ∀ n, QueueOk n s) (h : EventStep s t)
    (hs : InputClosed s) : InputClosed t := by
  cases h with
  | slot hq => exact slot_inputClosed hw (hqueue _) hq hs
  | @handler n _ h =>
    refine inputClosed_of_local (handlerFrame_local h) ?_ hs
    rintro rfl
    obtain ⟨-, -, -, -, -, hfilter, -, hpend, -⟩ := h
    exact ⟨hfilter.trans hs.1, hpend.trans hs.2⟩
  | keepsTick => exact hs
  | @held n => exact inputClosed_of_local (holdReset_local n s) (by rintro rfl; exact ⟨rfl, rfl⟩) hs
  | @released n =>
    refine inputClosed_of_local (releaseReset_local n s) ?_ hs
    rintro rfl
    unfold releaseReset
    split
    · exact ⟨rfl, rfl⟩
    · exact hs

/-! ## The whole machine -/

theorem busInv_and_queueInv_iff (s : State) :
    BusInv s ∧ QueueInv s ↔ (∀ m, QueueOk m s) ∧ InputClosed s ∧ s.inputs.all isEvent = true := by
  constructor
  · rintro ⟨⟨hinp, hdsp, hind, hact, hfilter, hpend, hevents⟩, hshape⟩
    refine ⟨fun m => ?_, ⟨hfilter, hpend⟩, hevents⟩
    cases m with
    | inp => exact ⟨hshape .inp, hinp, nofun⟩
    | dsp => exact ⟨hshape .dsp, hdsp, nofun⟩
    | ind => exact queueOk_of_empty hind
    | act => exact queueOk_of_empty hact
  · rintro ⟨hqueue, ⟨hfilter, hpend⟩, hevents⟩
    exact ⟨⟨(hqueue .inp).addressed, (hqueue .dsp).addressed, (hqueue .ind).silent rfl, (hqueue .act).silent rfl,
      hfilter, hpend, hevents⟩, fun n => (hqueue n).shape⟩

/-- Settles O54: node by node a step keeps the discipline of the queue, and so no character in it opens the input
node's filter. -/
theorem stepKeepsTheBusDiscipline : Obligations.StepKeepsTheBusDiscipline := by
  intro s t hbus hqueue h
  obtain ⟨hqueues, hclosed, hevents⟩ := (busInv_and_queueInv_iff s).mp ⟨hbus, hqueue⟩
  have hread (m : NodeId) := nextInput_agrees m s
  have hw : (nextInput s).2.cfg.wf = true := by rw [agreesAt_cfg (hread .inp), step_wf h]
  obtain ⟨⟨e, he⟩, hevents⟩ := nextInput_event hevents
  have hstep := step_eventStep h he
  have hqueues (m : NodeId) := queueOk_congr (hread m) (hqueues m)
  exact (busInv_and_queueInv_iff t).mpr ⟨fun m => nodeStep_queueOk (step_nodeStep h m) (hqueues m),
    eventStep_inputClosed hw hqueues hstep (inputClosed_congr (hread .inp) hclosed),
    (eventStep_inputs hstep).symm ▸ hevents⟩

end Sys2Proof.Machine
end

section
/-! SUPPORT. Proofs of family 60_exceptions: no operation raises (R250), a busy node is a critical section (R256, R261),
and what a step does with the input at the head of the script (R257, R258). -/

namespace Sys2Proof.Machine

/-- Settles O50: TXC by the queue; every other operation is a total function of the state. -/
theorem noOperationRaises : Obligations.NoOperationRaises := by
  intro i s hquiet
  cases i
  case txc n =>
    cases hq : (s.node n).txq with
    | nil => exact ⟨s, exec_txc_of_empty hq⟩
    | cons c rest => exact ⟨_, exec_txc_of_quiet hq (hquiet n rfl)⟩
  all_goals exact ⟨_, rfl⟩

/-! ## A busy node (60_exceptions R256, R261) -/

/-- Of node `n` and its role registers at most the filter and the pending events differ. -/
def OnlyFramer (n : NodeId) (s t : State) : Prop :=
  t.node n = { s.node n with
    filter := (t.node n).filter, rxPend := (t.node n).rxPend, rxBuf := (t.node n).rxBuf }
  ∧ (n = .dsp → t.disp = { s.disp with ctPend := t.disp.ctPend })

theorem onlyFramer_refl (n : NodeId) (s : State) : OnlyFramer n s s :=
  ⟨rfl, fun _ => rfl⟩

theorem onlyFramer_trans {n : NodeId} {s t u : State} (h1 : OnlyFramer n s t) (h2 : OnlyFramer n t u) :
    OnlyFramer n s u := by
  obtain ⟨hnode1, hdisp1⟩ := h1
  obtain ⟨hnode2, hdisp2⟩ := h2
  exact ⟨by rw [hnode2, hnode1], fun hn => by rw [hdisp2 hn, hdisp1 hn]⟩

theorem onlyFramer_congr {n : NodeId} {s s' t t' : State} (hs : agreesAt n s s') (ht : agreesAt n t t')
    (h : OnlyFramer n s' t) : OnlyFramer n s t' := by
  obtain ⟨hsnode, hsrole, -⟩ := hs
  obtain ⟨htnode, htrole, -⟩ := ht
  obtain ⟨hnode, hdisp⟩ := h
  refine ⟨by rw [htnode, ← hsnode]; exact hnode, ?_⟩
  rintro rfl
  rw [show t'.disp = t.disp from htrole, ← show s'.disp = s.disp from hsrole]
  exact hdisp rfl

theorem setFilter_onlyFramer (n : NodeId) (v : Bool) (s : State) : OnlyFramer n s (setFilter n v s) :=
  ⟨by simp, fun _ => by simp [setFilter]⟩

theorem keepByte_onlyFramer (n : NodeId) (b : Byte) (s : State) : OnlyFramer n s (keepByte n b s) := by
  unfold keepByte overrun
  split
  · split
    · exact onlyFramer_refl n s
    · exact ⟨by simp [setRxBuf], fun _ => by simp [setRxBuf]⟩
  · exact ⟨by simp [setRxPend, setRxBuf], fun _ => by simp [setRxPend, setRxBuf]⟩

/-- A busy node reacts to a character with its framer alone (40_framer R113, R116). -/
theorem rxChar_onlyFramer {n : NodeId} {s : State} (c : Char9) (hbusy : s.idle n = false) :
    OnlyFramer n s (rxChar n c s) := by
  unfold rxChar
  repeat' split
  · exact onlyFramer_refl n s
  · exact setFilter_onlyFramer n _ s
  · exact setFilter_onlyFramer n _ s
  · rw [rxdAcc_of_busy _ hbusy]
    exact onlyFramer_trans (setFilter_onlyFramer n true s) (keepByte_onlyFramer n _ _)

/-- Everything a step can do at a busy node that sends, but for its own slot and its power-on reset. -/
theorem nodeStep_onlyFramer {n : NodeId} {i : Input} {s t : State} (hn : n = .inp ∨ n = .dsp)
    (hbusy : s.idle n = false) (hrst : (s.node n).rst = false) (hreset : i ≠ .ev (.resetOn n))
    (hslot : i ≠ .ev (.slot n)) (h : NodeStep n i s t) : OnlyFramer n s t := by
  cases h with
  | untouched _ h => exact onlyFramer_congr (agreesAt_refl n s) h (onlyFramer_refl n s)
  | hears c _ h => exact onlyFramer_congr (agreesAt_refl n s) h (rxChar_onlyFramer c hbusy)
  | sends => exact absurd rfl hslot
  | accepts p hidle => simp [hbusy] at hidle
  | keeps p => exact keepByte_onlyFramer n p s
  | key k hidle => simp [hbusy] at hidle
  | tick hidle => simp [hbusy] at hidle
  | keepsTick => exact ⟨rfl, fun _ => rfl⟩
  | duty => simp at hn
  | blink => simp at hn
  | frame => simp at hn
  | held => exact absurd rfl hreset
  | released h => simp [hrst] at h

/-- A slot of its own that leaves something to send costs a node the head of its queue alone (40_framer R112). -/
theorem nodeStep_slot_more {n : NodeId} {c d : Char9} {rest : List Char9} {s t : State}
    (hrst : (s.node n).rst = false) (hq : (s.node n).txq = c :: d :: rest)
    (h : NodeStep n (.ev (.slot n)) s t) : agreesAt n (modNode n (dropHead (d :: rest)) s) t := by
  cases h with
  | untouched hslot h =>
    obtain h | h := hslot rfl
    · simp [hrst] at h
    · simp [idle_iff, hq] at h
  | hears c hslot h => exact absurd rfl hslot
  | sends c' rest' hq' hu ht =>
    rw [hq] at hq'
    cases hq'
    rw [ht, if_neg (List.cons_ne_nil d rest)]
    exact hu

/-- Settles O56: everything a step can do at a busy node, seen in the state with the input read. -/
theorem busyNodeIsACriticalSection : Obligations.BusyNodeIsACriticalSection := by
  intro s t n hn hbusy hrst hreset h
  have hread := nextInput_agrees n s
  obtain ⟨hnode, hrole, -⟩ := id hread
  have hstep := step_nodeStep h n
  refine ⟨fun hslot => ?_, fun c d rest hslot hq => ?_⟩
  · refine onlyFramer_congr hread (agreesAt_refl n t) (nodeStep_onlyFramer hn ?_ ?_ hreset hslot hstep)
    · rwa [State.idle, hnode]
    · rwa [hnode]
  · rw [hslot] at hstep
    obtain ⟨htnode, htrole, -⟩ := nodeStep_slot_more (by rwa [hnode]) (by rwa [hnode]) hstep
    rw [modNode_node_same, hnode] at htnode
    refine ⟨htnode, ?_⟩
    rintro rfl
    exact sameRole_trans hrole (sameRole_trans (modNode_sameRole ..) htrole)

/-! ## The input at the head of the script (60_exceptions R257, R258) -/

@[simp] theorem node_withInputs (n : NodeId) (is : List Input) (s : State) :
    State.node { s with inputs := is } n = s.node n := by
  cases n <;> rfl

@[simp] theorem idle_withInputs (n : NodeId) (is : List Input) (s : State) :
    State.idle { s with inputs := is } n = s.idle n := by
  simp [State.idle]

/-- What an input selects depends on the nodes, not on the script. -/
theorem select_withInputs (x : Input) (is : List Input) (s : State) :
    select x { s with inputs := is } = select x s := by
  cases x with
  | ev e => cases e <;> simp [select, selectEvent]
  | char | byte => simp [select]

section
variable {s : State} {x : Input} {rest : List Input} (hw : s.cfg.wf = true) (hin : s.inputs = x :: rest)
include hw hin

theorem step_of_select {i : Instr} (hsel : select x s = some i) :
    step s = exec i { s with inputs := rest } := by
  simp [step, hw, nextInput, hin, select_withInputs, hsel]

theorem step_of_select_none (hsel : select x s = none) :
    step s = absorb x { s with inputs := rest } := by
  simp [step, hw, nextInput, hin, select_withInputs, hsel]

end

/-- What the tables select is what the decoder reads. -/
theorem eq_of_decode {cfg : Cfg} {cx : Context} {bs : List Byte} {i j : Instr}
    (h : decode cfg cx bs = .ok (i, [])) (hj : Selects cfg cx bs j) : j = i := by
  obtain ⟨pre, hi, hbs⟩ := decode_eq_ok_iff.mp h
  rw [List.append_nil] at hbs
  exact selects_unique hj (hbs ▸ hi)

/-- Settles O47: the operation the tables select for the input is the one its bits decode to. -/
theorem stepRunsTheSelectedOperation : Obligations.StepRunsTheSelectedOperation := by
  intro s x rest i hw hin
  have hstep {j : Instr} := step_of_select (i := j) hw hin
  refine ⟨?_, ?_, ?_, ?_, ?_, ?_, ?_, ?_⟩
  · rintro m c rfl hrst hdec
    obtain rfl := eq_of_decode hdec ⟨c, rfl, rfl⟩
    exact hstep (by simp [select, hrst])
  · rintro m p rfl hrst hidle hdec
    obtain rfl := eq_of_decode hdec ⟨p, rfl, rfl⟩
    exact hstep (by simp [select, hrst, hidle])
  · rintro k rfl hrst hidle hdec
    obtain rfl := eq_of_decode hdec ⟨k, rfl, rfl⟩
    exact hstep (by simp [select, selectEvent, hrst, hidle])
  · rintro rfl hrst hidle
    exact hstep (by simp [select, selectEvent, hrst, hidle])
  · rintro rfl hrst
    exact hstep (by simp [select, selectEvent, hrst])
  · rintro rfl hrst
    exact hstep (by simp [select, selectEvent, hrst])
  · rintro rfl hrst
    exact hstep (by simp [select, selectEvent, hrst])
  · rintro n rfl hrst hbusy
    exact hstep (by simp [select, selectEvent, hrst, hbusy])

/-! A byte that waits, by what waits already (40_framer R116, R117). -/

theorem keepByte_of_empty {m : NodeId} {s : State} (p : Byte) (hpend : (s.node m).rxPend = false) :
    keepByte m p s = modNode m (fun x => { x with rxPend := true, rxBuf := p }) s := by
  rw [keepByte, if_neg (by simp [hpend])]
  cases m <;> rfl

theorem keepByte_of_keepOld {m : NodeId} {s : State} (p : Byte) (hpend : (s.node m).rxPend = true)
    (ho : s.cfg.rxOverrun = .keepOld) : keepByte m p s = s := by
  simp [keepByte, hpend, overrun, ho]

theorem keepByte_of_keepNew {m : NodeId} {s : State} (p : Byte) (hpend : (s.node m).rxPend = true)
    (ho : s.cfg.rxOverrun = .keepNew) : keepByte m p s = setRxBuf m p s := by
  simp [keepByte, hpend, overrun, ho]

theorem keepByte_onlyNode (m : NodeId) (p : Byte) (s : State) : onlyNode m s (keepByte m p s) := by
  cases hpend : (s.node m).rxPend with
  | false =>
    rw [keepByte_of_empty p hpend]
    exact modNode_onlyNode m _ s
  | true =>
    cases ho : s.cfg.rxOverrun with
    | keepOld =>
      rw [keepByte_of_keepOld p hpend ho]
      exact ⟨fun _ _ => rfl, rfl, rfl, rfl, rfl, rfl, rfl, rfl⟩
    | keepNew =>
      rw [keepByte_of_keepNew p hpend ho]
      exact modNode_onlyNode m _ s

/-- Settles O48: a busy node's input selects no operation, and is kept or lost. -/
theorem busyNodeKeepsByteAndTick : Obligations.BusyNodeKeepsByteAndTick := by
  intro s rest hw
  refine ⟨fun hin hrst hbusy => ?_, fun k hin hbusy => ?_, fun m p hin hrst hbusy => ?_⟩
  · rw [step_of_select_none hw hin (by simp [select, selectEvent, hbusy]), absorb, absorbEvent,
      if_neg (by simp [hrst])]
    rfl
  · exact step_of_select_none hw hin (by simp [select, selectEvent, hbusy])
  · have hstep := step_of_select_none hw hin (by simp [select, hbusy])
    rw [absorb, if_neg (by simp [hrst])] at hstep
    refine ⟨_, hstep, keepByte_onlyNode m p _, fun hpend => ?_, fun hpend ho => ?_, fun hpend ho => ?_⟩
    · rw [keepByte_of_empty p (by simpa using hpend), modNode_node_same, node_withInputs]
    · rw [keepByte_of_keepOld p (by simpa using hpend) (by exact ho), node_withInputs]
    · rw [keepByte_of_keepNew p (by simpa using hpend) (by exact ho), setRxBuf, modNode_node_same, node_withInputs]

/-- Settles O49: what is refused, what the free schedule gives, and the inputs that select nothing and leave no
trace. -/
theorem stepConventions : Obligations.StepConventions := by
  intro s
  refine ⟨fun hw => by simp [step, hw], fun hin => by simp [step, nextInput, hin], fun x rest hw hin hx => ?_⟩
  have hstep := step_of_select_none hw hin
  obtain ⟨n, rfl, hidle⟩ | ⟨m, c, rfl, hrst⟩ | ⟨m, p, rfl, hrst⟩ | ⟨n, rfl, hrst⟩ | ⟨k, rfl, hrst⟩
    | ⟨rfl, hrst⟩ | ⟨rfl, hrst⟩ | ⟨rfl | rfl, hrst⟩ := hx
  · exact hstep (by simp [select, selectEvent, hidle])
  · exact hstep (by simp [select, hrst])
  · rw [hstep (by simp [select, hrst]), absorb, if_pos (by simpa using hrst)]
  · exact hstep (by simp [select, selectEvent, hrst])
  · exact hstep (by simp [select, selectEvent, hrst])
  · rw [hstep (by simp [select, selectEvent, hrst]), absorb, absorbEvent, if_pos hrst]
  · exact hstep (by simp [select, selectEvent, hrst])
  · exact hstep (by simp [select, selectEvent, hrst])
  · exact hstep (by simp [select, selectEvent, hrst])

end Sys2Proof.Machine
end

section
/-! SUPPORT. Proofs of family 70_reset: the values and outputs at power-on (70_reset R281, R282), the power cycle of
one node (R280), and the repeated RESET (R286). -/

namespace Sys2Proof.Machine

/-- Settles O1: the fixed state's registers. -/
theorem powerOnOutputs : Obligations.PowerOnOutputs :=
  ⟨rfl, rfl, rfl, rfl, rfl, rfl, rfl, rfl, rfl⟩

theorem powerOnValues_reset (n : NodeId) (out : List OutEvent) (s : State) :
    powerOnValues n (modNode n (fun _ => Node.reset out) (resetRole n s)) := by
  cases n <;> exact ⟨rfl, rfl, rfl, rfl, rfl, by trivial⟩

@[simp] theorem resetRole_inputs (n : NodeId) (s : State) : (resetRole n s).inputs = s.inputs := by
  cases n <;> rfl

@[simp] theorem resetRole_free (n : NodeId) (s : State) : (resetRole n s).free = s.free := by
  cases n <;> rfl

/-- A node held in reset is released with its power-on values and outputs (70_reset R281, R282). -/
theorem releaseReset_of_rst {n : NodeId} {s : State} (h : (s.node n).rst = true) :
    releaseReset n s = modNode n (fun _ => Node.reset (bootTrace n)) (resetRole n s) :=
  if_pos h

@[simp] theorem holdReset_rst (n : NodeId) (s : State) : ((holdReset n s).node n).rst = true := by
  rw [holdReset, modNode_node_same]

@[simp] theorem holdReset_inputs (n : NodeId) (s : State) : (holdReset n s).inputs = s.inputs := by
  simp [holdReset]

@[simp] theorem holdReset_free (n : NodeId) (s : State) : (holdReset n s).free = s.free := by
  simp [holdReset]

@[simp] theorem holdReset_cfg (n : NodeId) (s : State) : (holdReset n s).cfg = s.cfg :=
  localTo_cfg (holdReset_local n s)

/-- The state after node `n`'s reset input was asserted and released, with the script `rest` left. -/
def powerCycled (n : NodeId) (rest : List Input) (s : State) : State :=
  releaseReset n { holdReset n s with inputs := rest }

theorem runSteps_powerCycled {n : NodeId} {rest : List Input} {s : State} (hw : s.cfg.wf = true)
    (hin : s.inputs = .ev (.resetOn n) :: .ev (.resetOff n) :: rest) :
    runSteps 2 s = .next (powerCycled n rest { s with inputs := .ev (.resetOff n) :: rest }) := by
  have hfirst := step_of_select_none hw hin rfl
  have hsecond := step_of_select_none (s := holdReset n { s with inputs := .ev (.resetOff n) :: rest })
    (x := .ev (.resetOff n)) (rest := rest) (by simpa using hw) (by simp) rfl
  rw [runSteps, hfirst]
  simp only [absorb, absorbEvent, runSteps, hsecond]
  rfl

/-- The node holds its power-on values; nothing else has changed. -/
theorem powerCycled_eq (n : NodeId) (rest : List Input) (s : State) :
    powerCycled n rest s
      = modNode n (fun _ => Node.reset (bootTrace n)) (resetRole n { holdReset n s with inputs := rest }) :=
  releaseReset_of_rst (by rw [node_withInputs, holdReset_rst])

theorem powerCycled_other {m n : NodeId} (hm : m ≠ n) (rest : List Input) (s : State) :
    agreesAt m s (powerCycled n rest s) :=
  agreesAt_trans (agreesAt_of_local hm (holdReset_local n s))
    (agreesAt_trans (t := { holdReset n s with inputs := rest })
      ⟨node_withInputs .., by cases m <;> simp [sameRole], rfl⟩ (agreesAt_of_local hm (releaseReset_local n _)))

/-- Settles O2: the reset values of each node, and the two steps of a power cycle. -/
theorem powerCycleRetainsNothing : Obligations.PowerCycleRetainsNothing := by
  refine ⟨fun n => by cases n <;> exact ⟨rfl, rfl, rfl, rfl, rfl, by trivial⟩, fun s n rest hw hin => ?_⟩
  have hother {m : NodeId} (hm : m ≠ n) :=
    powerCycled_other hm rest { s with inputs := .ev (.resetOff n) :: rest }
  refine ⟨_, runSteps_powerCycled hw hin, ?_, ?_, ?_, fun m hm => ?_, ?_, ?_, ?_⟩
  case refine_4 =>
    obtain ⟨hnode, hrole, -⟩ := hother hm
    exact ⟨hnode.trans (node_withInputs ..), by cases m <;> exact hrole⟩
  all_goals rw [powerCycled_eq]
  · exact powerOnValues_reset n _ _
  · rw [modNode_node_same]; rfl
  · rw [modNode_node_same]; cases n <;> rfl
  · cases n <;> rfl
  · simp
  · simp

/-- Settles O42: both RESET operations write constants, and only the outputs that come with no change repeat. -/
theorem secondResetChangesNothing : Obligations.SecondResetChangesNothing := by
  intro s
  refine ⟨⟨actReset s, rfl, ?_⟩, indReset s, rfl, ?_⟩
  · have hagain : actReset (actReset s) = actReset s := by simp [actReset_eq]
    exact congrArg Host.Outcome.next hagain
  · have hagain : indReset (indReset s) = { indReset s with
        ind := { (indReset s).ind with out := (indReset s).ind.out ++ [.indProgress 0] } } := by
      simp [indReset_eq]
    exact congrArg Host.Outcome.next hagain

end Sys2Proof.Machine
end

section
/-! SUPPORT. Proofs of family 70_reset: the timed session (70_reset R300). The display's tick handler runs the countdown
engine, which reads and writes the engine's registers alone; so the session ends with the countdown. -/

namespace Sys2Proof.Machine

/-! ## The engine reads its registers alone (42_countdown R162 to R164) -/

theorem ctProgress_congr {s t : State} (h : t.disp = s.disp) (k : Progress) :
    (ctProgress k t).disp = (ctProgress k s).disp := by
  unfold ctProgress
  rw [h]
  split <;> simp [h]

theorem ctSecond_congr {s t : State} (h : t.disp = s.disp) :
    (ctSecond t).disp = (ctSecond s).disp ∧ (ctSecond t).ret = (ctSecond s).ret := by
  cases hup : timeIsUp s.disp with
  | true =>
    rw [ctSecond_of_up hup, ctSecond_of_up (h ▸ hup)]
    exact ⟨h, rfl⟩
  | false =>
    have hless : (modDisp oneSecondLess t).disp = (modDisp oneSecondLess s).disp := by simp [h]
    have hbar := ctProgress_congr hless .bar
    rw [ctSecond_of_left hup rfl, ctSecond_of_left (h ▸ hup) rfl]
    exact ⟨ctProgress_congr hbar .per, by rw [setRet_ret, setRet_ret, hless, hbar]⟩

theorem ctTick_congr {s t : State} (h : t.disp = s.disp) :
    (ctTick t).disp = (ctTick s).disp ∧ (ctTick t).ret = (ctTick s).ret := by
  unfold ctTick
  rw [h]
  split
  · dsimp only
    split
    · exact ctSecond_congr (by simp [h])
    · exact ⟨by simp [h], rfl⟩
  · exact ⟨h, rfl⟩

/-! ## The display's tick handler by what the engine returns (41_display R143) -/

theorem dspTick_not_finished {s : State} (h : (ctTick s).ret ≠ .finished) :
    (dspTick s).disp = (ctTick s).disp ∧ (dspTick s).dsp.st = s.dsp.st := by
  have hst : (ctTick s).dsp.st = s.dsp.st := by rw [ctTick_dsp]
  obtain hret | hret | ⟨bar, per, hret⟩ := ctTick_ret s
  · rw [dspTick_of_none hret]
    exact ⟨rfl, hst⟩
  · exact absurd hret h
  · rw [dspTick_of_advanced hret]
    exact ⟨dspSec_disp bar per _, by cases bar <;> cases per <;> exact hst⟩

/-- The session is over and the engine stopped. -/
def SessionOver (s : State) : Prop :=
  s.dsp.st = .timerEnded ∧ s.disp.ctRun = false

theorem dspTick_finished {s : State} (h : (ctTick s).ret = .finished) : SessionOver (dspTick s) := by
  rw [dspTick_of_finished h]
  exact ⟨rfl, rfl⟩

theorem dspTick_sessionOver {s : State} (h : SessionOver s) : SessionOver (dspTick s) := by
  obtain ⟨hst, hrun⟩ := h
  have htick := ctTick_stopped hrun
  rw [dspTick_of_none (by rw [htick, setRet_ret]), htick]
  exact ⟨hst, hrun⟩

/-! ## The timed session -/

/-- DSP.T_OK and `j` handled ticks. -/
def sessionAfter (j : Nat) (s : State) : State :=
  dspTick^[j] (dspTOk s)

theorem execAll_sessionAfter (j : Nat) (s : State) :
    execAll (.dspTOk :: List.replicate j .dspTick) s = .next (sessionAfter j s) := by
  rw [execAll_cons_of_next (t := dspTOk s) rfl]
  exact execAll_replicate_of_next (fun _ => rfl) j _

theorem sessionAfter_succ (j : Nat) (s : State) : sessionAfter (j + 1) s = dspTick (sessionAfter j s) :=
  Function.iterate_succ_apply' ..

/-- The session's registers are those of the countdown of `acc` minutes. -/
def TracksCountdown (j : Nat) (s : State) : Prop :=
  (sessionAfter j s).disp = (ticksAfterStart s.disp.acc j s).disp

/-- Where the session tracks the countdown, its next tick returns what the countdown's returns. -/
theorem ctTick_sessionAfter {j : Nat} {s : State} (h : TracksCountdown j s) :
    (ctTick (sessionAfter j s)).disp = (ticksAfterStart s.disp.acc (j + 1) s).disp
    ∧ (ctTick (sessionAfter j s)).ret = (ticksAfterStart s.disp.acc (j + 1) s).ret := by
  rw [ticksAfterStart_succ]
  exact ctTick_congr h

/-- The countdown finishes with its last tick and with no earlier one (42_countdown R167). -/
theorem ticksAfterStart_finished_iff {total : Byte} {j : Nat} (hj : j < 2 * (totalSec total + 1)) (s : State) :
    (ticksAfterStart total (j + 1) s).ret = .finished ↔ j + 1 = 2 * (totalSec total + 1) := by
  obtain ⟨-, -, -, hret⟩ := ticksAfterStart_cases (total := total) (j := j + 1) hj s
  exact hret (Nat.le_add_left 1 j)

theorem sessionAfter_running {j : Nat} {s : State} (hj : j < 2 * (totalSec s.disp.acc + 1)) :
    TracksCountdown j s ∧ (sessionAfter j s).dsp.st = .timerRunning := by
  induction j with
  | zero => exact ⟨rfl, rfl⟩
  | succ j ih =>
    obtain ⟨htracks, hst⟩ := ih (Nat.lt_of_succ_lt hj)
    obtain ⟨hdisp, hret⟩ := ctTick_sessionAfter htracks
    have hgoes : (ctTick (sessionAfter j s)).ret ≠ .finished := by
      rw [hret, ne_eq, ticksAfterStart_finished_iff (Nat.lt_of_succ_lt hj)]
      exact hj.ne
    obtain ⟨hdisp', hst'⟩ := dspTick_not_finished hgoes
    rw [TracksCountdown, sessionAfter_succ]
    exact ⟨hdisp'.trans hdisp, hst'.trans hst⟩

theorem sessionAfter_over {j : Nat} {s : State} (hj : 2 * (totalSec s.disp.acc + 1) ≤ j) :
    SessionOver (sessionAfter j s) := by
  induction j, hj using Nat.le_induction with
  | base =>
    have hlast : 2 * totalSec s.disp.acc + 1 < 2 * (totalSec s.disp.acc + 1) := by omega
    obtain ⟨-, hret⟩ := ctTick_sessionAfter (sessionAfter_running hlast).1
    rw [Nat.mul_succ, sessionAfter_succ]
    exact dspTick_finished (hret.trans ((ticksAfterStart_finished_iff hlast s).mpr rfl))
  | succ j _ ih =>
    rw [sessionAfter_succ]
    exact dspTick_sessionOver ih

/-- Settles O27: the session tracks the countdown up to its last tick, which ends both. -/
theorem timedSessionEndsAtItsTick : Obligations.TimedSessionEndsAtItsTick := by
  intro s j
  rw [Nat.mul_comm 60]
  exact ⟨_, execAll_sessionAfter j s, fun hj => (sessionAfter_running hj).2, fun hj => sessionAfter_over hj⟩

end Sys2Proof.Machine
end

section
/-! SUPPORT. Proofs of family 70_reset: the double TIMER-ENDED (70_reset R291, H-5). A foreign character splits one of
the two broadcasts at most; the other reaches the indicator and the actuator whole, and neither leaves `TimerEnded`
again. -/

namespace Sys2Proof.Machine

/-! ## The slots of a quiet bus, whatever is pending at the sender (40_framer R112, R118) -/

theorem txEn_of_frame {m : NodeId} {s t : State} (h : handlerFrame m s t) :
    (t.node m).txEn = (s.node m).txEn := by
  obtain ⟨-, -, -, -, -, -, htx, -⟩ := h
  exact htx

theorem takeByte_txEn (n : NodeId) (s : State) : ((takeByte n s).node n).txEn = (s.node n).txEn := by
  unfold takeByte
  split
  · exact (txEn_of_frame (rx_frame n _ (setRxPend n false s))).trans (by simp [setRxPend])
  · rfl

theorem takeTick_txEn (s : State) : (takeTick s).dsp.txEn = s.dsp.txEn := by
  unfold takeTick
  split
  · exact txEn_of_frame (dspTick_frame (modDisp (fun d => { d with ctPend := false }) s))
  · rfl

theorem idleEntry_txEn (n : NodeId) (s : State) : ((idleEntry n s).node n).txEn = (s.node n).txEn := by
  cases n with
  | inp | ind | act => exact takeByte_txEn ..
  | dsp =>
    obtain ⟨k, he | he⟩ := idleEntry_dsp_cases s <;> rw [he]
    · exact (takeTick_txEn _).trans (takeByte_txEn .dsp { s with free := k })
    · exact (takeByte_txEn .dsp _).trans (takeTick_txEn { s with free := k })

/-- No node is transmit-enabled, as between two slots (10_state R24). -/
def Quiet (s : State) : Prop :=
  ∀ n, (s.node n).txEn = false

theorem slot_quiet {s : State} (h : Quiet s) (n : NodeId) (c : Char9) (rest : List Char9) :
    Quiet (slot n c rest s) := by
  intro m
  by_cases hm : m = n
  · subst hm
    obtain ⟨u, ⟨hnode, -, -⟩, hslot⟩ := slot_agrees_own m c rest s
    have hu : (u.node m).txEn = false := by rw [hnode, modNode_node_same]; rfl
    rw [hslot]
    split
    · exact (idleEntry_txEn m u).trans hu
    · exact hu
  · obtain ⟨hother, -, -⟩ := slot_agrees_other hm c rest s
    rw [hother, (rxChar_pins m c s).2, h m]

theorem slot_txq_own {n : NodeId} {c : Char9} {rest : List Char9} {s : State} (hrest : rest ≠ []) :
    ((slot n c rest s).node n).txq = rest := by
  obtain ⟨u, ⟨hnode, -, -⟩, hslot⟩ := slot_agrees_own n c rest s
  rw [hslot, if_neg hrest, hnode, modNode_node_same]
  rfl

/-- The slots in which node `n` sends the first characters `q` of its queue: every other node hears them, and what is
left stays in the queue. -/
theorem execAll_first_slots {n : NodeId} {q rest : List Char9} {s : State} (hquiet : Quiet s)
    (hq : q ++ rest ≠ [] → (s.node n).txq = q ++ rest) :
    ∃ t, execAll (List.replicate q.length (.txc n)) s = .next t ∧ Quiet t
      ∧ (rest ≠ [] → (t.node n).txq = rest) ∧ ∀ m, m ≠ n → agreesAt m (hear m q s) t := by
  induction q generalizing s with
  | nil => exact ⟨s, rfl, hquiet, hq, fun m _ => agreesAt_refl m s⟩
  | cons c q ih =>
    obtain ⟨t, hrun, hquiet', hleft, hheard⟩ := ih (slot_quiet hquiet n c (q ++ rest)) slot_txq_own
    have hfirst := exec_txc_of_quiet (hq (List.cons_ne_nil _ _)) fun m _ => hquiet m
    exact ⟨t, (execAll_cons_of_next hfirst _).trans hrun, hquiet', hleft,
      fun m hm => agreesAt_trans (hear_agrees m q (slot_agrees_other hm c _ s)) (hheard m hm)⟩

theorem execAll_append_of_next {is : List Instr} {s t : State} (h : execAll is s = .next t) (js : List Instr) :
    execAll (is ++ js) s = execAll js t := by
  induction is generalizing s with
  | nil =>
    cases h
    rfl
  | cons i is ih =>
    simp only [List.cons_append, execAll] at h ⊢
    split at h
    · exact ih h
    · cases h
    · cases h

theorem hear_append (m : NodeId) (p q : List Char9) (s : State) : hear m (p ++ q) s = hear m q (hear m p s) := by
  simp [hear]

/-- Only the display sends when it hears something (10_state R25, 44_input R201). -/
theorem rxChar_txq {m : NodeId} (hm : m ≠ .dsp) (c : Char9) (s : State) :
    ((rxChar m c s).node m).txq = (s.node m).txq := by
  unfold rxChar rxa rxdDrop rxdAcc acceptByte
  repeat' split
  · rfl
  · simp
  · simp
  · rw [rx_txq hm, setFilter_node_same]
  · rw [keepByte_txq, setFilter_node_same]

theorem hear_txq {m : NodeId} (hm : m ≠ .dsp) (q : List Char9) (s : State) :
    ((hear m q s).node m).txq = (s.node m).txq := by
  induction q generalizing s with
  | nil => rfl
  | cons c q ih => exact (ih _).trans (rxChar_txq hm c s)

/-- An address character makes nobody send (40_framer R114). -/
theorem rxChar_addrCh_txq (m : NodeId) (a : Byte) (s : State) :
    ((rxChar m (addrCh a) s).node m).txq = (s.node m).txq := by
  cases hrst : (s.node m).rst with
  | true => rw [rxChar_of_rst _ hrst]
  | false => rw [rxChar_addrCh a hrst, setFilter_node_same]

/-- The display's queue `p ++ q` sent out with an address character of the input node between `p` and `q`. -/
theorem execAll_interrupted {p q : List Char9} {a : Byte} {s : State} (hquiet : Quiet s)
    (hdsp : s.dsp.txq = p ++ q) (hinp : s.inp.txq = [addrCh a]) :
    ∃ t, execAll (List.replicate p.length (.txc .dsp) ++ .txc .inp :: List.replicate q.length (.txc .dsp)) s = .next t
      ∧ ∀ m, m ≠ .inp → m ≠ .dsp → agreesAt m (hear m (p ++ addrCh a :: q) s) t := by
  obtain ⟨t1, hrun1, hquiet1, hleft, hheard1⟩ := execAll_first_slots (n := .dsp) hquiet fun _ => hdsp
  have hinp1 : t1.inp.txq = [addrCh a] := by
    obtain ⟨hnode, -, -⟩ := hheard1 .inp (by decide)
    exact (congrArg Node.txq hnode).trans ((hear_txq (by decide) p s).trans hinp)
  have hrun2 := exec_txc_of_quiet (n := .inp) hinp1 fun m _ => hquiet1 m
  have hleft2 : q ++ [] ≠ [] → ((slot .inp (addrCh a) [] t1).node .dsp).txq = q ++ [] := by
    obtain ⟨hnode, -, -⟩ := slot_agrees_other (m := .dsp) (n := .inp) (by decide) (addrCh a) [] t1
    rw [List.append_nil, hnode, rxChar_addrCh_txq]
    exact hleft
  obtain ⟨t, hrun3, -, -, hheard3⟩ := execAll_first_slots (slot_quiet hquiet1 .inp (addrCh a) []) hleft2
  refine ⟨t, ?_, fun m hmi hmd => ?_⟩
  · rw [execAll_append_of_next hrun1, execAll_cons_of_next hrun2, hrun3]
  · rw [hear_append]
    exact agreesAt_trans (hear_agrees m (addrCh a :: q) (hheard1 m hmd))
      (agreesAt_trans (hear_agrees m q (slot_agrees_other hmi (addrCh a) [] t1)) (hheard3 m hmd))

/-! ## The finish code at the two passive nodes (45_indicator R216, 46_actuator R232) -/

/-- The session state that a finish code ends. -/
def runningState : NodeId → SessionState
  | .act => .noTimer
  | _ => .timerRunning

/-- Node `m`, idle under the build `cfg`, is in the state that a finish code ends, or has ended. -/
structure AwaitsEnd (cfg : Cfg) (m : NodeId) (s : State) : Prop where
  cfg_eq : s.cfg = cfg
  rst : (s.node m).rst = false
  idle : s.idle m = true
  st : (s.node m).st = runningState m ∨ (s.node m).st = .timerEnded

/-- A character of an end broadcast, or a foreign address character. -/
def FinishChar (cfg : Cfg) (c : Char9) : Prop :=
  (∃ a, c = addrCh a) ∨ c = dataCh cfg.iEnded

theorem setFilter_awaitsEnd {cfg : Cfg} {m : NodeId} {s : State} (h : AwaitsEnd cfg m s) (v : Bool) :
    AwaitsEnd cfg m (setFilter m v s) := by
  obtain ⟨hcfg, hrst, hidle, hst⟩ := h
  exact ⟨by simpa using hcfg, by simpa using hrst, by simpa using hidle, by simpa using hst⟩

section
variable {cfg : Cfg} {m : NodeId} (hw : cfg.wf = true) (hcodes : cfg.iEnded = cfg.aEnded) (hm : m = .ind ∨ m = .act)
include hw hcodes hm

theorem rx_finish_st {s : State} (h : AwaitsEnd cfg m s) : ((rx m cfg.iEnded s).node m).st = .timerEnded := by
  obtain ⟨rfl, -, -, hst⟩ := h
  obtain rfl | rfl := hm
  · obtain ⟨-, -, ⟨hreset, hstartNt, hstartWt⟩, -⟩ := wf_indicatorCodes hw
    simp only [rx, indRx]
    obtain hst | hst : s.ind.st = .timerRunning ∨ s.ind.st = .timerEnded := hst
    · rw [hst, selectInd_timerRunning_iEnded hw]
      rfl
    · rw [selectInd_of_ne_timerRunning (by rw [hst]; decide) hreset hstartNt hstartWt]
      exact hst
  · simp only [rx, actRx, hcodes, selectAct_aEnded hw]
    obtain hst | hst : s.act.st = .noTimer ∨ s.act.st = .timerEnded := hst
    · rw [if_pos hst]
      simp only [node_act, actEnded_eq]
    · rw [if_neg (by rw [hst]; decide)]
      exact hst

theorem rx_finish {s : State} (h : AwaitsEnd cfg m s) :
    AwaitsEnd cfg m (rx m cfg.iEnded s) ∧ ((rx m cfg.iEnded s).node m).st = .timerEnded := by
  have hst := rx_finish_st hw hcodes hm h
  obtain ⟨-, hcfg, -, -, hrst, -⟩ := rx_frame m cfg.iEnded s
  have hq : ((rx m cfg.iEnded s).node m).txq = (s.node m).txq := rx_txq (by rintro rfl; simp at hm) _ s
  exact ⟨⟨hcfg.trans h.cfg_eq, hrst.trans h.rst, idle_iff.mpr (hq.trans (idle_iff.mp h.idle)), .inr hst⟩, hst⟩

/-- Such a character leaves the session as it is or ends it. -/
theorem rxChar_finish {c : Char9} {s : State} (hc : FinishChar cfg c) (h : AwaitsEnd cfg m s) :
    AwaitsEnd cfg m (rxChar m c s)
    ∧ (((rxChar m c s).node m).st = (s.node m).st ∨ ((rxChar m c s).node m).st = .timerEnded) := by
  obtain ⟨a, rfl⟩ | rfl := hc
  · rw [rxChar_addrCh a h.rst]
    exact ⟨setFilter_awaitsEnd h _, .inl (by simp)⟩
  · rw [rxChar_dataCh _ h.rst]
    split
    · exact ⟨h, .inl rfl⟩
    · rw [rxdAcc_of_idle _ h.idle]
      obtain ⟨hawaits, hst⟩ := rx_finish hw hcodes hm (setFilter_awaitsEnd h true)
      exact ⟨hawaits, .inr hst⟩

theorem hear_finish {q : List Char9} {s : State} (hq : ∀ c ∈ q, FinishChar cfg c) (h : AwaitsEnd cfg m s) :
    AwaitsEnd cfg m (hear m q s)
    ∧ (((hear m q s).node m).st = (s.node m).st ∨ ((hear m q s).node m).st = .timerEnded) := by
  induction q generalizing s with
  | nil => exact ⟨h, .inl rfl⟩
  | cons c q ih =>
    rw [List.forall_mem_cons] at hq
    obtain ⟨hc, hq⟩ := hq
    obtain ⟨hfirst, hst⟩ := rxChar_finish hw hcodes hm hc h
    obtain ⟨hrest, hst'⟩ := ih hq hfirst
    refine ⟨hrest, ?_⟩
    obtain hst' | hst' := hst'
    · exact hst.imp hst'.trans hst'.trans
    · exact .inr hst'

/-- A whole finish message among such characters ends the session (40_framer R123). -/
theorem hear_whole_message {q : List Char9} {s : State} (hq : ∀ c ∈ q, FinishChar cfg c)
    (hwhole : message (cfg.addr m) cfg.iEnded <:+: q) (h : AwaitsEnd cfg m s) :
    ((hear m q s).node m).st = .timerEnded := by
  obtain ⟨as, bs, rfl⟩ := hwhole
  obtain ⟨hbefore, -⟩ := hear_finish hw hcodes hm (q := as) (fun c hc => hq c (by simp [hc])) h
  have hmessage : hear m (message (cfg.addr m) cfg.iEnded) (hear m as s)
      = rx m cfg.iEnded (setFilter m true (hear m as s)) :=
    hbefore.cfg_eq ▸ rxChar_message_addressee _ hbefore.rst hbefore.idle
  obtain ⟨hended, hst⟩ := rx_finish hw hcodes hm (setFilter_awaitsEnd hbefore true)
  rw [hear_append, hear_append, hmessage]
  obtain ⟨-, hafter | hafter⟩ := hear_finish hw hcodes hm (q := bs) (fun c hc => hq c (by simp [hc])) hended
  · exact hafter.trans hst
  · exact hafter

end

/-! ## The double broadcast (41_display R149) -/

/-- BCAST_ENDED once, with one finish code for both nodes. -/
def finishOnce (cfg : Cfg) : List Char9 :=
  messages cfg [(.ind, cfg.iEnded), (.act, cfg.iEnded)]

theorem finishOnce_finishChar {cfg : Cfg} {c : Char9} (hc : c ∈ finishOnce cfg) : FinishChar cfg c := by
  simp only [finishOnce, messages, message, List.mem_flatMap, List.mem_cons, List.not_mem_nil, or_false] at hc
  obtain ⟨x, rfl | rfl, rfl | rfl⟩ := hc
  · exact .inl ⟨_, rfl⟩
  · exact .inr rfl
  · exact .inl ⟨_, rfl⟩
  · exact .inr rfl

theorem message_isInfix_finishOnce (cfg : Cfg) {m : NodeId} (hm : m = .ind ∨ m = .act) :
    message (cfg.addr m) cfg.iEnded <:+: finishOnce cfg := by
  obtain rfl | rfl := hm
  · exact ⟨[], message cfg.addrAct cfg.iEnded, rfl⟩
  · exact ⟨message cfg.addrInd cfg.iEnded, [], rfl⟩

/-- One of two copies stays whole wherever something is put between their elements. -/
theorem isInfix_of_insert {α : Type} (xs : List α) (x : α) (j : Nat) :
    xs <:+: (xs ++ xs).take j ++ x :: (xs ++ xs).drop j := by
  obtain hj | hj := Nat.le_total j xs.length
  · rw [List.take_append_of_le_length hj, List.drop_append_of_le_length hj]
    exact ⟨xs.take j ++ x :: xs.drop j, [], by simp⟩
  · obtain ⟨k, rfl⟩ := Nat.exists_eq_add_of_le hj
    rw [List.take_length_add_append, List.drop_length_add_append]
    exact ⟨[], xs.take k ++ x :: xs.drop k, by simp⟩

/-- The double broadcast with an address character put in after its first `j` characters. -/
def interruptedFinish (cfg : Cfg) (a : Byte) (j : Nat) : List Char9 :=
  (finishOnce cfg ++ finishOnce cfg).take j ++ addrCh a :: (finishOnce cfg ++ finishOnce cfg).drop j

theorem interruptedFinish_finishChar {cfg : Cfg} {a : Byte} {j : Nat} {c : Char9}
    (hc : c ∈ interruptedFinish cfg a j) : FinishChar cfg c := by
  rw [interruptedFinish, List.mem_append, List.mem_cons] at hc
  obtain hc | rfl | hc := hc
  · exact finishOnce_finishChar (by simpa using List.mem_of_mem_take hc)
  · exact .inl ⟨a, rfl⟩
  · exact finishOnce_finishChar (by simpa using List.mem_of_mem_drop hc)

theorem hear_interruptedFinish {cfg : Cfg} {m : NodeId} {s : State} (hw : cfg.wf = true)
    (hcodes : cfg.iEnded = cfg.aEnded) (hm : m = .ind ∨ m = .act) (h : AwaitsEnd cfg m s) (a : Byte) (j : Nat) :
    ((hear m (interruptedFinish cfg a j) s).node m).st = .timerEnded :=
  hear_whole_message hw hcodes hm (fun _ => interruptedFinish_finishChar)
    ((message_isInfix_finishOnce cfg hm).trans (isInfix_of_insert _ _ j)) h

theorem dspFin_node_ne {m : NodeId} (hm : m ≠ .dsp) (s : State) : (dspFin s).node m = s.node m := by
  obtain ⟨hothers, -⟩ := dspFin_frame s
  exact (hothers m hm).1

theorem dspFin_quiet {s : State} (h : Quiet s) : Quiet (dspFin s) := by
  intro n
  by_cases hn : n = .dsp
  · exact hn ▸ (txEn_of_frame (dspFin_frame s)).trans (h .dsp)
  · rw [dspFin_node_ne hn, h n]

theorem dspFin_txq {s : State} (hcodes : s.cfg.iEnded = s.cfg.aEnded) (hq : s.dsp.txq = []) :
    (dspFin s).dsp.txq = finishOnce s.cfg ++ finishOnce s.cfg := by
  have hsent : (dspFin s).dsp.txq = s.dsp.txq ++ messages s.cfg [(.ind, s.cfg.iEnded), (.act, s.cfg.aEnded),
      (.ind, s.cfg.iEnded), (.act, s.cfg.aEnded)] :=
    bcastEnded_txq (emit .dsp .screenEnd (setSt .dsp .timerEnded (ctStop s)))
  rw [hsent, hq, ← hcodes]
  rfl

/-- DSP.FIN, and its eight slots with the input node's after `j` of them: what the passive nodes hear. -/
theorem execAll_interruptedFinish {s : State} {a : Byte} {j : Nat} (hj : j ≤ 8)
    (hcodes : s.cfg.iEnded = s.cfg.aEnded) (hquiet : Quiet s) (hdsp : s.dsp.txq = [])
    (hinp : s.inp.txq = [addrCh a]) :
    ∃ t, execAll (.dspFin :: (List.replicate j (.txc .dsp) ++ .txc .inp :: List.replicate (8 - j) (.txc .dsp))) s
        = .next t
      ∧ ∀ m, m ≠ .inp → m ≠ .dsp → agreesAt m (hear m (interruptedFinish s.cfg a j) (dspFin s)) t := by
  have hq := (dspFin_txq hcodes hdsp).trans (List.take_append_drop j _).symm
  have hinp' : (dspFin s).inp.txq = [addrCh a] :=
    (congrArg Node.txq (dspFin_node_ne (m := .inp) (by decide) s)).trans hinp
  obtain ⟨t, hrun, hheard⟩ := execAll_interrupted (dspFin_quiet hquiet) hq hinp'
  have hlength : (finishOnce s.cfg ++ finishOnce s.cfg).length = 8 := rfl
  rw [List.length_take, List.length_drop, hlength, Nat.min_eq_left hj] at hrun
  exact ⟨t, (execAll_cons_of_next rfl _).trans hrun, hheard⟩

/-- Settles O59: the eight characters with one address character among them hold one of the two broadcasts whole, and
its two messages end the sessions of their addressees for good. -/
theorem doubleTimerEndedSurvivesAForeignAddress : Obligations.DoubleTimerEndedSurvivesAForeignAddress := by
  intro s a j hj hw hcodes hlisten hdsp hinp hind hact hindSt hactSt
  obtain ⟨t, hrun, hheard⟩ := execAll_interruptedFinish hj hcodes (fun n => (hlisten n).2) hdsp hinp
  have hcfg : (dspFin s).cfg = s.cfg := localTo_cfg (handlerFrame_local (dspFin_frame s))
  have hends {m : NodeId} (hm : m = .ind ∨ m = .act) (hidle : (s.node m).txq = [])
      (hst : (s.node m).st = runningState m) : (t.node m).st = .timerEnded := by
    have hinp : m ≠ .inp := by rintro rfl; simp at hm
    have hdsp : m ≠ .dsp := by rintro rfl; simp at hm
    have hnode := dspFin_node_ne hdsp s
    obtain ⟨hend, -, -⟩ := hheard m hinp hdsp
    rw [hend]
    exact hear_interruptedFinish hw hcodes hm ⟨hcfg, by rw [hnode, (hlisten m).1],
      idle_iff.mpr (by rw [hnode, hidle]), .inl (by rw [hnode, hst])⟩ a j
  exact ⟨t, hrun, hends (.inl rfl) hind hindSt, hends (.inr rfl) hact hactSt⟩

end Sys2Proof.Machine
end
